-- ==== Sys2Proof/Word.lean ====
section
/-! DEFINITION. The bit-vector types of the model (spec/00_scope.md R9, R11; spec/20_memory.md R50).
The spec's `d[hi:lo]` (R9) is written `d.extractLsb' lo (hi - lo + 1)` throughout: the low bit and the
width. The spec's `a : b` (R10) is `a ++ b`. -/

namespace Sys2Proof

/-- A one-bit field of a descriptor. Every extracted field is an opaque bit-vector (R6). -/
abbrev Bit := BitVec 1

/-- One byte of memory, the unit of `MemRead` (R52). -/
abbrev Byte := BitVec 8

/-- A VMSAv8-64 descriptor value: 64 bits, bit 0 least significant (R9, R50). -/
abbrev Desc64 := BitVec 64

/-- A VMSAv9-128 descriptor value: 128 bits, bit 0 least significant (R9, R50). -/
abbrev Desc128 := BitVec 128

end Sys2Proof
end

