-- ==== Sys2Proof/Config.lean ====
section
/-! DEFINITION. The context record `ctx` of spec/10_state.md R20 to R38 and the parameters of
spec/20_memory.md R52 and spec/44_v9_128_block_page.md R226. Every field is an input of the decode:
no rule of the spec writes one (R20). The field names are the spec's. -/

namespace Sys2Proof

/-- The translation system (R21). It alone fixes the descriptor width (R79). -/
inductive System where
  | VMSAv8_64
  | VMSAv9_128
  deriving DecidableEq, Repr

/-- The translation stage (R22). -/
inductive Stage where
  | S1
  | S2
  deriving DecidableEq, Repr

/-- The translation granule (R24). -/
inductive Granule where
  | G4K
  | G16K
  | G64K
  deriving DecidableEq, Repr

/-- The Security state (R27). -/
inductive SecState where
  | Secure
  | NonSecure
  | Realm
  | Root
  deriving DecidableEq, Repr

/-- The translation regime (R27): EL1&0, EL2, EL2&0, EL3. -/
inductive Regime where
  | EL1_0
  | EL2
  | EL2_0
  | EL3
  deriving DecidableEq, Repr

/-- The four-entry map `ctx.pbha_en`, one enable per descriptor bit 59 to 62 (R32). -/
structure PbhaEn where
  b59 : Bool
  b60 : Bool
  b61 : Bool
  b62 : Bool
  deriving DecidableEq, Repr

/-- A value for each granule. -/
structure PerGranule (α : Type) where
  g4K  : α
  g16K : α
  g64K : α
  deriving DecidableEq, Repr

/-- A value for each lookup level -2 to 3 (R23). -/
structure PerLevel (α : Type) where
  lm2 : α
  lm1 : α
  l0  : α
  l1  : α
  l2  : α
  l3  : α
  deriving DecidableEq, Repr

/-- A value for each value of the two-bit SKL field (R76). -/
structure PerSkl (α : Type) where
  skl0 : α
  skl1 : α
  skl2 : α
  skl3 : α
  deriving DecidableEq, Repr

/-- A permitted-size predicate as plain data, indexed `(granule, level, SKL)` as R76 passes it (R38). -/
abbrev SizeTable := PerGranule (PerLevel (PerSkl Bool))

/-- The parameter `ctx.v9_block_shift(granule, level)` as plain data; `none` is "not given" (R226). -/
abbrev ShiftTable := PerGranule (PerLevel (Option Nat))

/-- The decode context (R20): implemented features, Effective control values, and the parameters the
source leaves open. -/
structure Ctx where
  /-- R21 -/
  system : System
  /-- R22 -/
  stage : Stage
  /-- R23: an integer; the model refuses one outside -2..3 (R78). -/
  level : Int
  /-- R24 -/
  granule : Granule
  /-- R25: Effective TCR_ELx.DS (stage 1) or VTCR_EL2.DS (stage 2). -/
  DS : Bool
  /-- R26 -/
  FEAT_LPA : Bool
  /-- R26 -/
  FEAT_BTI : Bool
  /-- R26 -/
  FEAT_BBML1 : Bool
  /-- R26 -/
  FEAT_HPDS2 : Bool
  /-- R26 -/
  FEAT_S1POE : Bool
  /-- R26 -/
  FEAT_AIE : Bool
  /-- R26 -/
  FEAT_XNX : Bool
  /-- R26 -/
  FEAT_XS : Bool
  /-- R26 -/
  FEAT_THE : Bool
  /-- R27 -/
  secstate : SecState
  /-- R27 -/
  regime : Regime
  /-- R27: the regime supports two privilege levels; an input of its own (D21). -/
  two_priv : Bool
  /-- R28, R46: Effective HCR_EL2.{NV, NV1} is {1, 1}; meaningful only in the EL1&0 regime. -/
  NV_NV1 : Bool
  /-- R29 -/
  hier_perm : Bool
  /-- R30 -/
  PnCH : Bool
  /-- R31 -/
  hw_table_af : Bool
  /-- R32: Effective TCR_ELx.HWUnn enables. -/
  pbha_en : PbhaEn
  /-- R33 -/
  s1_overlay : Bool
  /-- R33 -/
  s2_overlay : Bool
  /-- R34 -/
  s1_indirect : Bool
  /-- R34 -/
  s2_indirect : Bool
  /-- R35 -/
  aie_en : Bool
  /-- R36: the already selected Effective TCR2_ELx.FNGy. -/
  FNG : Bool
  /-- R37: Effective HCR_EL2.FWB. -/
  FWB : Bool
  /-- R37: VTCR_EL2.AssuredOnly. -/
  AssuredOnly : Bool
  /-- R38 -/
  el2_enabled : Bool
  /-- R38 -/
  table_permitted : SizeTable
  /-- R38 -/
  block_permitted : SizeTable
  /-- R226, D19 -/
  v9_block_shift : ShiftTable
  /-- R52, D4 -/
  big_endian_walk : Bool
  deriving DecidableEq, Repr

/-- Why a context is refused (R46, R78, D15, D22). -/
inductive CtxReject where
  /-- `ctx.level` outside -2..3 (R78). -/
  | levelOutOfRange
  /-- `ctx.s1_overlay` without `ctx.FEAT_S1POE` (R33, R46). -/
  | overlayWithoutS1POE
  /-- `ctx.aie_en` without `ctx.FEAT_AIE` (R35, R46). -/
  | aieWithoutFeature
  /-- some `ctx.pbha_en[j]` without `ctx.FEAT_HPDS2` (R32, R46). -/
  | pbhaWithoutHPDS2
  /-- `ctx.NV_NV1` outside the EL1&0 translation regime (R28, R46). -/
  | nvOutsideEL1
  /-- Root state outside the EL3 translation regime (R46). -/
  | rootOutsideEL3
  /-- stage 2 in Root state (R158, D15). -/
  | stage2InRoot
  /-- `ctx.FNG = 1` for a single-privilege regime (R137, D15). -/
  | fngSinglePrivilege
  deriving DecidableEq, Repr

/-- The same value at every granule. -/
def PerGranule.const {α : Type} (v : α) : PerGranule α := ⟨v, v, v⟩

/-- The same value at every level. -/
def PerLevel.const {α : Type} (v : α) : PerLevel α := ⟨v, v, v, v, v, v⟩

/-- The same value at every SKL. -/
def PerSkl.const {α : Type} (v : α) : PerSkl α := ⟨v, v, v, v⟩

/-- The value at a granule. -/
def PerGranule.at {α : Type} (t : PerGranule α) (g : Granule) : α :=
  match g with
  | .G4K => t.g4K
  | .G16K => t.g16K
  | .G64K => t.g64K

/-- The value at a lookup level; none outside -2..3. -/
def PerLevel.at {α : Type} (t : PerLevel α) (l : Int) : Option α :=
  if l = -2 then some t.lm2
  else if l = -1 then some t.lm1
  else if l = 0 then some t.l0
  else if l = 1 then some t.l1
  else if l = 2 then some t.l2
  else if l = 3 then some t.l3
  else none

/-- The value at an SKL. -/
def PerSkl.at {α : Type} (t : PerSkl α) (k : BitVec 2) : α :=
  if k = 0#2 then t.skl0
  else if k = 1#2 then t.skl1
  else if k = 2#2 then t.skl2
  else t.skl3

/-- A permitted-size predicate at `(granule, level, SKL)` (R38, R76). -/
def SizeTable.permits (t : SizeTable) (g : Granule) (l : Int) (k : BitVec 2) : Bool :=
  match (t.at g).at l with
  | some row => row.at k
  | none => false

/-- `ctx.v9_block_shift(granule, level)`; none where it is not given (R226). -/
def ShiftTable.shift (t : ShiftTable) (g : Granule) (l : Int) : Option Nat :=
  match (t.at g).at l with
  | some n => n
  | none => none

/-- The context in `State.reset`. DESIGN CHOICE, log entry 1: the spec leaves every field unspecified
at reset (R45, R290) but for `big_endian_walk = false`; the values are the default context that
spec/95_test_vectors.md section 4 fixes for its vectors, with VMSAv8-64, stage 1 and level 2. -/
def Ctx.reset : Ctx where
  system := .VMSAv8_64
  stage := .S1
  level := 2
  granule := .G4K
  DS := false
  FEAT_LPA := false
  FEAT_BTI := false
  FEAT_BBML1 := false
  FEAT_HPDS2 := false
  FEAT_S1POE := false
  FEAT_AIE := false
  FEAT_XNX := false
  FEAT_XS := false
  FEAT_THE := false
  secstate := .NonSecure
  regime := .EL1_0
  two_priv := true
  NV_NV1 := false
  hier_perm := false
  PnCH := false
  hw_table_af := false
  pbha_en := ⟨false, false, false, false⟩
  s1_overlay := false
  s2_overlay := false
  s1_indirect := false
  s2_indirect := false
  aie_en := false
  FNG := false
  FWB := false
  AssuredOnly := false
  el2_enabled := false
  table_permitted := .const (.const (.const true))
  block_permitted := .const (.const (.const true))
  v9_block_shift := .const (.const none)
  big_endian_walk := false

end Sys2Proof
end

