-- ==== Sys2Proof/Syntax.lean ====
section
/-! DEFINITION. The descriptor formats as syntax: one constructor of `Instr` per row of
spec/opcode_table.json (spec/30_encoding.md R79). The operands of a format are the distinct bit ranges
of its field table, which tile the descriptor (spec/95_test_vectors.md section 2); a range is named
after its bits, since what it means depends on the context and is the meaning's business. The bits
that the format fixes ([1:0] or [0]) are no operands. -/

namespace Sys2Proof

/-- Ranges of Table D8-50 (R101). -/
structure V8TableS1Ops where
  b63 : Bit
  b62_61 : BitVec 2
  b60 : Bit
  b59 : Bit
  b58_53 : BitVec 6
  b52 : Bit
  b51 : Bit
  b50 : Bit
  b49_48 : BitVec 2
  b47_12 : BitVec 36
  b11 : Bit
  b10 : Bit
  b9_8 : BitVec 2
  b7_2 : BitVec 6
  deriving DecidableEq, Repr

/-- Ranges of Table D8-51 (R116). -/
structure V8TableS2Ops where
  b63 : Bit
  b62_59 : BitVec 4
  b58_51 : BitVec 8
  b50 : Bit
  b49_48 : BitVec 2
  b47_12 : BitVec 36
  b11 : Bit
  b10 : Bit
  b9_8 : BitVec 2
  b7_2 : BitVec 6
  deriving DecidableEq, Repr

/-- Ranges of Table D8-52 that Block and Page descriptors share (R130, R131, R133). -/
structure V8LeafS1Ops where
  b63 : Bit
  b62_60 : BitVec 3
  b59 : Bit
  b58_55 : BitVec 4
  b54 : Bit
  b53 : Bit
  b52 : Bit
  b51 : Bit
  b50 : Bit
  b49_48 : BitVec 2
  b11 : Bit
  b10 : Bit
  b9_8 : BitVec 2
  b7 : Bit
  b6 : Bit
  b5 : Bit
  b4_2 : BitVec 3
  deriving DecidableEq, Repr

/-- Ranges of Table D8-53 that Block and Page descriptors share (R155, R156, R157). -/
structure V8LeafS2Ops where
  b63 : Bit
  b62_60 : BitVec 3
  b59 : Bit
  b58 : Bit
  b57_56 : BitVec 2
  b55 : Bit
  b54 : Bit
  b53 : Bit
  b52 : Bit
  b51 : Bit
  b50 : Bit
  b49_48 : BitVec 2
  b11 : Bit
  b10 : Bit
  b9_8 : BitVec 2
  b7 : Bit
  b6 : Bit
  b5 : Bit
  b4_2 : BitVec 3
  deriving DecidableEq, Repr

/-- Ranges of the stage 1 VMSAv9-128 Table descriptor table (R191). -/
structure V9TableS1Ops where
  b127 : Bit
  b126_125 : BitVec 2
  b124_121 : BitVec 4
  b120_119 : BitVec 2
  b118_115 : BitVec 4
  b114 : Bit
  b113 : Bit
  b112 : Bit
  b111 : Bit
  b110_109 : BitVec 2
  b108_101 : BitVec 8
  b100_91 : BitVec 10
  b90_56 : BitVec 35
  b55_12 : BitVec 44
  b11 : Bit
  b10 : Bit
  b9_7 : BitVec 3
  b6 : Bit
  b5_2 : BitVec 4
  b1 : Bit
  deriving DecidableEq, Repr

/-- Ranges of Table D8-57 (R206). -/
structure V9TableS2Ops where
  b127 : Bit
  b126_125 : BitVec 2
  b124_121 : BitVec 4
  b120_119 : BitVec 2
  b118_115 : BitVec 4
  b114 : Bit
  b113_112 : BitVec 2
  b111 : Bit
  b110_109 : BitVec 2
  b108_101 : BitVec 8
  b100_91 : BitVec 10
  b90_56 : BitVec 35
  b55_12 : BitVec 44
  b11 : Bit
  b10 : Bit
  b9_7 : BitVec 3
  b6 : Bit
  b5_2 : BitVec 4
  b1 : Bit
  deriving DecidableEq, Repr

/-- Ranges of Table D8-58 (R221). -/
structure V9LeafS1Ops where
  b127 : Bit
  b126_125 : BitVec 2
  b124_121 : BitVec 4
  b120_119 : BitVec 2
  b118_115 : BitVec 4
  b114 : Bit
  b113 : Bit
  b112 : Bit
  b111 : Bit
  b110_109 : BitVec 2
  b108_101 : BitVec 8
  b100_91 : BitVec 10
  b90_56 : BitVec 35
  b55_12 : BitVec 44
  b11 : Bit
  b10 : Bit
  b9_8 : BitVec 2
  b7 : Bit
  b6 : Bit
  b5 : Bit
  b4_2 : BitVec 3
  b1 : Bit
  deriving DecidableEq, Repr

/-- Ranges of Table D8-59 (R241). -/
structure V9LeafS2Ops where
  b127 : Bit
  b126_125 : BitVec 2
  b124_121 : BitVec 4
  b120_119 : BitVec 2
  b118_115 : BitVec 4
  b114 : Bit
  b113_112 : BitVec 2
  b111 : Bit
  b110_109 : BitVec 2
  b108_101 : BitVec 8
  b100_91 : BitVec 10
  b90_56 : BitVec 35
  b55_12 : BitVec 44
  b11 : Bit
  b10 : Bit
  b9_8 : BitVec 2
  b7 : Bit
  b6 : Bit
  b5 : Bit
  b4_2 : BitVec 3
  b1 : Bit
  deriving DecidableEq, Repr

/-- The descriptor formats (R79), one constructor per row of spec/opcode_table.json. -/
inductive Instr where
  /-- V8.TABLE.S1 -/
  | v8TableS1 (o : V8TableS1Ops)
  /-- V8.TABLE.S2 -/
  | v8TableS2 (o : V8TableS2Ops)
  /-- V8.BLOCK.S1: the shared ranges and Block[47:17], Block[16], Block[15:12] (R132). -/
  | v8BlockS1 (a : V8LeafS1Ops) (b47_17 : BitVec 31) (b16 : Bit) (b15_12 : BitVec 4)
  /-- V8.PAGE.S1: the shared ranges and Page[47:12] (R132). -/
  | v8PageS1 (a : V8LeafS1Ops) (b47_12 : BitVec 36)
  /-- V8.BLOCK.S2 -/
  | v8BlockS2 (a : V8LeafS2Ops) (b47_17 : BitVec 31) (b16 : Bit) (b15_12 : BitVec 4)
  /-- V8.PAGE.S2 -/
  | v8PageS2 (a : V8LeafS2Ops) (b47_12 : BitVec 36)
  /-- V8.INVALID.S1, ranges of Table D8-54 (R180). -/
  | v8InvalidS1 (b63_53 : BitVec 11) (b52 : Bit) (b51_1 : BitVec 51)
  /-- V8.INVALID.S2, ranges of Table D8-55 (R182). -/
  | v8InvalidS2 (b63_1 : BitVec 63)
  /-- V8.RESERVED: no field table (R184). -/
  | v8Reserved (b63_2 : BitVec 62)
  /-- V9.TABLE.S1 -/
  | v9TableS1 (o : V9TableS1Ops)
  /-- V9.TABLE.S2 -/
  | v9TableS2 (o : V9TableS2Ops)
  /-- V9.BLOCKPAGE.S1 -/
  | v9BlockPageS1 (o : V9LeafS1Ops)
  /-- V9.BLOCKPAGE.S2 -/
  | v9BlockPageS2 (o : V9LeafS2Ops)
  /-- V9.INVALID, ranges of Table D8-60; bit[0] is 1 in the cases (b), (c), (d) of R260. -/
  | v9Invalid (b127_115 : BitVec 13) (b114 : Bit) (b113_1 : BitVec 113) (b0 : Bit)
  deriving DecidableEq, Repr

end Sys2Proof
end

