-- ==== Sys2Proof/WellFormed.lean ====
section
/-! DEFINITION. In which contexts a format applies: the context column of spec/opcode_table.json and
the "Applies when" sentence of each format rule, over a context that passes the checks of
spec/10_state.md R46 and spec/92_eei_decisions.md D15, D22. -/

namespace Sys2Proof

/-- The context passes every check of R46, R78 and D15. -/
def Ctx.wf (c : Ctx) : Bool :=
  decide (-2 ≤ c.level) && decide (c.level ≤ 3)
    && (!c.s1_overlay || c.FEAT_S1POE)
    && (!c.aie_en || c.FEAT_AIE)
    && (!c.pbha_en.b59 || c.FEAT_HPDS2) && (!c.pbha_en.b60 || c.FEAT_HPDS2)
    && (!c.pbha_en.b61 || c.FEAT_HPDS2) && (!c.pbha_en.b62 || c.FEAT_HPDS2)
    && (!c.NV_NV1 || decide (c.regime = .EL1_0))
    && (!decide (c.secstate = .Root) || decide (c.regime = .EL3))
    && !(decide (c.stage = .S2) && decide (c.secstate = .Root))
    && (!c.FNG || c.two_priv)

/-- A VMSAv8-64 Block descriptor has no format here: the complement list of R152. -/
def Ctx.noV8BlockFormat (c : Ctx) : Bool :=
  decide (c.level = -2) || decide (c.level = -1)
    || (decide (c.granule = .G4K) && decide (c.level = 0) && !c.DS)
    || (decide (c.granule = .G16K) && decide (c.level = 0))
    || (decide (c.granule = .G16K) && decide (c.level = 1) && !c.DS)
    || (decide (c.granule = .G64K) && decide (c.level = 0))
    || (decide (c.granule = .G64K) && decide (c.level = 1) && !c.FEAT_LPA)

/-- System and stage of a format. -/
def Ctx.isFor (c : Ctx) (sys : System) (st : Stage) : Bool :=
  decide (c.system = sys) && decide (c.stage = st)

/-- R190, R205: level + SKL below 3 and a permitted table size. -/
def Ctx.v9TableHere (c : Ctx) (skl : BitVec 2) : Bool :=
  decide (c.level + skl.toNat < 3) && c.table_permitted.permits c.granule c.level skl

/-- R220, R240: level + SKL equal to 3 and a permitted block size. -/
def Ctx.v9LeafHere (c : Ctx) (skl : BitVec 2) : Bool :=
  decide (c.level + skl.toNat = 3) && c.block_permitted.permits c.granule c.level skl

/-- The SKL bits [110:109] of a V9.INVALID descriptor, inside its range [113:1]. -/
def v9InvalidSkl (b113_1 : BitVec 113) : BitVec 2 := b113_1.extractLsb' 108 2

/-- The format of the instruction applies in the context. -/
def Instr.wf (c : Ctx) (i : Instr) : Bool :=
  c.wf &&
  match i with
  | .v8TableS1 _ => c.isFor .VMSAv8_64 .S1 && decide (c.level < 3)
  | .v8TableS2 _ => c.isFor .VMSAv8_64 .S2 && decide (c.level < 3)
  | .v8BlockS1 _ _ _ _ => c.isFor .VMSAv8_64 .S1 && decide (c.level < 3) && !c.noV8BlockFormat
  | .v8PageS1 _ _ => c.isFor .VMSAv8_64 .S1 && decide (c.level = 3)
  | .v8BlockS2 _ _ _ _ => c.isFor .VMSAv8_64 .S2 && decide (c.level < 3) && !c.noV8BlockFormat
  | .v8PageS2 _ _ => c.isFor .VMSAv8_64 .S2 && decide (c.level = 3)
  | .v8InvalidS1 _ _ _ => c.isFor .VMSAv8_64 .S1
  | .v8InvalidS2 _ => c.isFor .VMSAv8_64 .S2
  | .v8Reserved _ => decide (c.system = .VMSAv8_64) && decide (c.level = 3)
  | .v9TableS1 o => c.isFor .VMSAv9_128 .S1 && c.v9TableHere o.b110_109
  | .v9TableS2 o => c.isFor .VMSAv9_128 .S2 && c.v9TableHere o.b110_109
  | .v9BlockPageS1 o => c.isFor .VMSAv9_128 .S1 && c.v9LeafHere o.b110_109
  | .v9BlockPageS2 o => c.isFor .VMSAv9_128 .S2 && c.v9LeafHere o.b110_109
  | .v9Invalid _ _ b113_1 b0 =>
    decide (c.system = .VMSAv9_128)
      && (decide (b0 = 0#1)
        || (!c.v9TableHere (v9InvalidSkl b113_1) && !c.v9LeafHere (v9InvalidSkl b113_1)))

end Sys2Proof
end

