-- ==== Sys2Proof/Decode.lean ====
section
/-! DEFINITION. From bytes to a descriptor format and back: byte order (spec/20_memory.md R52), the
checks on the context (spec/10_state.md R46), type determination (spec/30_encoding.md R74, R75, R76),
the ranges of each field table, then the encoder. Decoding is total: it answers an instruction or a
refusal by name. -/

namespace Sys2Proof

/-! ### Descriptor values and bytes -/

/-- A descriptor value of either length (R50, R79). -/
inductive Desc where
  | d64 (d : Desc64)
  | d128 (d : Desc128)
  deriving DecidableEq, Repr

/-- The descriptor has the length that the system fixes (R79). -/
def Desc.isOf : Desc → System → Bool
  | .d64 _, .VMSAv8_64 => true
  | .d128 _, .VMSAv9_128 => true
  | .d64 _, .VMSAv9_128 => false
  | .d128 _, .VMSAv8_64 => false

/-- Bit `k` of a descriptor (R9). -/
def Desc.bit (d : Desc) (k : Nat) : Bool :=
  match d with
  | .d64 d => d.getLsbD k
  | .d128 d => d.getLsbD k

/-- Descriptor length in bytes, fixed by the system alone (R50, R79). -/
def System.bytes : System → Nat
  | .VMSAv8_64 => 8
  | .VMSAv9_128 => 16

/-- The value whose least significant byte comes first. -/
def leValue : List Byte → Nat
  | [] => 0
  | b :: bs => b.toNat + 256 * leValue bs

/-- The `n` low bytes of a value, least significant first. -/
def leBytes : Nat → Nat → List Byte
  | 0, _ => []
  | n + 1, v => BitVec.ofNat 8 v :: leBytes n (v / 256)

/-- The value of the bytes in address order under `big_endian_walk` (R52). -/
def bytesValue (big : Bool) (bs : List Byte) : Nat :=
  if big then leValue bs.reverse else leValue bs

/-- The bytes of a value in address order under `big_endian_walk` (R52). -/
def valueBytes (big : Bool) (n v : Nat) : List Byte :=
  if big then (leBytes n v).reverse else leBytes n v

/-- The descriptor a system reads from a value (R50). -/
def System.desc (sys : System) (v : Nat) : Desc :=
  match sys with
  | .VMSAv8_64 => .d64 (BitVec.ofNat 64 v)
  | .VMSAv9_128 => .d128 (BitVec.ofNat 128 v)

/-- A descriptor in memory, in address order (R52). -/
def Desc.bytes (big : Bool) : Desc → List Byte
  | .d64 d => valueBytes big 8 d.toNat
  | .d128 d => valueBytes big 16 d.toNat

/-! ### Checks on the context -/

/-- The first check of R46, R78, D15 that the context breaks; which one is named where several are
broken is the model's order (DESIGN CHOICE, log entry 5). -/
def Ctx.check (c : Ctx) : Option CtxReject :=
  if c.level < -2 ∨ 3 < c.level then some .levelOutOfRange
  else if c.s1_overlay ∧ ¬ c.FEAT_S1POE then some .overlayWithoutS1POE
  else if c.aie_en ∧ ¬ c.FEAT_AIE then some .aieWithoutFeature
  else if (c.pbha_en.b59 ∨ c.pbha_en.b60 ∨ c.pbha_en.b61 ∨ c.pbha_en.b62) ∧ ¬ c.FEAT_HPDS2 then
    some .pbhaWithoutHPDS2
  else if c.NV_NV1 ∧ c.regime ≠ .EL1_0 then some .nvOutsideEL1
  else if c.secstate = .Root ∧ c.regime ≠ .EL3 then some .rootOutsideEL3
  else if c.stage = .S2 ∧ c.secstate = .Root then some .stage2InRoot
  else if c.FNG ∧ ¬ c.two_priv then some .fngSinglePrivilege
  else none

/-! ### Type determination -/

/-- The types of Table D8-48 (R74). -/
inductive V8Class where
  | Invalid
  | ReservedInvalid
  | Table
  | Block
  | Page
  deriving DecidableEq, Repr

/-- Why a VMSAv9-128 descriptor is Invalid (R261). -/
inductive InvalidCause where
  | BitZero
  | TableSizeNotPermitted
  | BlockSizeNotPermitted
  | SumAbove3
  deriving DecidableEq, Repr

/-- The types of Table D8-49 (R76). -/
inductive V9Class where
  | Invalid (cause : InvalidCause)
  | Table
  | BlockOrPage
  deriving DecidableEq, Repr

/-- `classify_v8` of R74. -/
def classifyV8 (c : Ctx) (d : Desc64) : V8Class :=
  if d.getLsbD 0 = false then .Invalid
  else if c.level = 3 then (if d.getLsbD 1 then .Page else .ReservedInvalid)
  else (if d.getLsbD 1 then .Table else .Block)

/-- `classify_v9` of R76 from bit[0] and the stored SKL (D18, log entry 8). -/
def classifyV9Skl (c : Ctx) (valid : Bool) (skl : BitVec 2) : V9Class :=
  if valid = false then .Invalid .BitZero
  else
    let sum : Int := c.level + skl.toNat
    if sum < 3 then
      (if c.table_permitted.permits c.granule c.level skl then .Table
        else .Invalid .TableSizeNotPermitted)
    else if sum = 3 then
      (if c.block_permitted.permits c.granule c.level skl then .BlockOrPage
        else .Invalid .BlockSizeNotPermitted)
    else .Invalid .SumAbove3

/-- `classify_v9` of R76. -/
def classifyV9 (c : Ctx) (d : Desc128) : V9Class :=
  classifyV9Skl c (d.getLsbD 0) (d.extractLsb' 109 2)

/-- The low bound `n` of a VMSAv8-64 Block descriptor's OAB, with the extra condition of each row of
R151; none where R151 has no row (R152). -/
def blockShiftV8 (c : Ctx) : Option Nat :=
  match c.granule with
  | .G4K =>
    if c.level = 0 then (if c.DS then some 39 else none)
    else if c.level = 1 then some 30
    else if c.level = 2 then some 21
    else none
  | .G16K =>
    if c.level = 1 then (if c.DS then some 36 else none)
    else if c.level = 2 then some 25
    else none
  | .G64K =>
    if c.level = 1 then (if c.FEAT_LPA then some 42 else none)
    else if c.level = 2 then some 29
    else none

/-! ### The ranges of each field table -/

/-- Ranges of a VMSAv8-64 stage 1 Table descriptor (R101). -/
def V8TableS1Ops.ofBits (d : Desc64) : V8TableS1Ops where
  b63 := d.extractLsb' 63 1
  b62_61 := d.extractLsb' 61 2
  b60 := d.extractLsb' 60 1
  b59 := d.extractLsb' 59 1
  b58_53 := d.extractLsb' 53 6
  b52 := d.extractLsb' 52 1
  b51 := d.extractLsb' 51 1
  b50 := d.extractLsb' 50 1
  b49_48 := d.extractLsb' 48 2
  b47_12 := d.extractLsb' 12 36
  b11 := d.extractLsb' 11 1
  b10 := d.extractLsb' 10 1
  b9_8 := d.extractLsb' 8 2
  b7_2 := d.extractLsb' 2 6

/-- Ranges of a VMSAv8-64 stage 2 Table descriptor (R116). -/
def V8TableS2Ops.ofBits (d : Desc64) : V8TableS2Ops where
  b63 := d.extractLsb' 63 1
  b62_59 := d.extractLsb' 59 4
  b58_51 := d.extractLsb' 51 8
  b50 := d.extractLsb' 50 1
  b49_48 := d.extractLsb' 48 2
  b47_12 := d.extractLsb' 12 36
  b11 := d.extractLsb' 11 1
  b10 := d.extractLsb' 10 1
  b9_8 := d.extractLsb' 8 2
  b7_2 := d.extractLsb' 2 6

/-- Ranges that VMSAv8-64 stage 1 Block and Page descriptors share (R131, R133). -/
def V8LeafS1Ops.ofBits (d : Desc64) : V8LeafS1Ops where
  b63 := d.extractLsb' 63 1
  b62_60 := d.extractLsb' 60 3
  b59 := d.extractLsb' 59 1
  b58_55 := d.extractLsb' 55 4
  b54 := d.extractLsb' 54 1
  b53 := d.extractLsb' 53 1
  b52 := d.extractLsb' 52 1
  b51 := d.extractLsb' 51 1
  b50 := d.extractLsb' 50 1
  b49_48 := d.extractLsb' 48 2
  b11 := d.extractLsb' 11 1
  b10 := d.extractLsb' 10 1
  b9_8 := d.extractLsb' 8 2
  b7 := d.extractLsb' 7 1
  b6 := d.extractLsb' 6 1
  b5 := d.extractLsb' 5 1
  b4_2 := d.extractLsb' 2 3

/-- Ranges that VMSAv8-64 stage 2 Block and Page descriptors share (R156, R157). -/
def V8LeafS2Ops.ofBits (d : Desc64) : V8LeafS2Ops where
  b63 := d.extractLsb' 63 1
  b62_60 := d.extractLsb' 60 3
  b59 := d.extractLsb' 59 1
  b58 := d.extractLsb' 58 1
  b57_56 := d.extractLsb' 56 2
  b55 := d.extractLsb' 55 1
  b54 := d.extractLsb' 54 1
  b53 := d.extractLsb' 53 1
  b52 := d.extractLsb' 52 1
  b51 := d.extractLsb' 51 1
  b50 := d.extractLsb' 50 1
  b49_48 := d.extractLsb' 48 2
  b11 := d.extractLsb' 11 1
  b10 := d.extractLsb' 10 1
  b9_8 := d.extractLsb' 8 2
  b7 := d.extractLsb' 7 1
  b6 := d.extractLsb' 6 1
  b5 := d.extractLsb' 5 1
  b4_2 := d.extractLsb' 2 3

/-- Ranges of a VMSAv9-128 stage 1 Table descriptor (R191). -/
def V9TableS1Ops.ofBits (d : Desc128) : V9TableS1Ops where
  b127 := d.extractLsb' 127 1
  b126_125 := d.extractLsb' 125 2
  b124_121 := d.extractLsb' 121 4
  b120_119 := d.extractLsb' 119 2
  b118_115 := d.extractLsb' 115 4
  b114 := d.extractLsb' 114 1
  b113 := d.extractLsb' 113 1
  b112 := d.extractLsb' 112 1
  b111 := d.extractLsb' 111 1
  b110_109 := d.extractLsb' 109 2
  b108_101 := d.extractLsb' 101 8
  b100_91 := d.extractLsb' 91 10
  b90_56 := d.extractLsb' 56 35
  b55_12 := d.extractLsb' 12 44
  b11 := d.extractLsb' 11 1
  b10 := d.extractLsb' 10 1
  b9_7 := d.extractLsb' 7 3
  b6 := d.extractLsb' 6 1
  b5_2 := d.extractLsb' 2 4
  b1 := d.extractLsb' 1 1

/-- Ranges of a VMSAv9-128 stage 2 Table descriptor (R206). -/
def V9TableS2Ops.ofBits (d : Desc128) : V9TableS2Ops where
  b127 := d.extractLsb' 127 1
  b126_125 := d.extractLsb' 125 2
  b124_121 := d.extractLsb' 121 4
  b120_119 := d.extractLsb' 119 2
  b118_115 := d.extractLsb' 115 4
  b114 := d.extractLsb' 114 1
  b113_112 := d.extractLsb' 112 2
  b111 := d.extractLsb' 111 1
  b110_109 := d.extractLsb' 109 2
  b108_101 := d.extractLsb' 101 8
  b100_91 := d.extractLsb' 91 10
  b90_56 := d.extractLsb' 56 35
  b55_12 := d.extractLsb' 12 44
  b11 := d.extractLsb' 11 1
  b10 := d.extractLsb' 10 1
  b9_7 := d.extractLsb' 7 3
  b6 := d.extractLsb' 6 1
  b5_2 := d.extractLsb' 2 4
  b1 := d.extractLsb' 1 1

/-- Ranges of a VMSAv9-128 stage 1 Block or Page descriptor (R221). -/
def V9LeafS1Ops.ofBits (d : Desc128) : V9LeafS1Ops where
  b127 := d.extractLsb' 127 1
  b126_125 := d.extractLsb' 125 2
  b124_121 := d.extractLsb' 121 4
  b120_119 := d.extractLsb' 119 2
  b118_115 := d.extractLsb' 115 4
  b114 := d.extractLsb' 114 1
  b113 := d.extractLsb' 113 1
  b112 := d.extractLsb' 112 1
  b111 := d.extractLsb' 111 1
  b110_109 := d.extractLsb' 109 2
  b108_101 := d.extractLsb' 101 8
  b100_91 := d.extractLsb' 91 10
  b90_56 := d.extractLsb' 56 35
  b55_12 := d.extractLsb' 12 44
  b11 := d.extractLsb' 11 1
  b10 := d.extractLsb' 10 1
  b9_8 := d.extractLsb' 8 2
  b7 := d.extractLsb' 7 1
  b6 := d.extractLsb' 6 1
  b5 := d.extractLsb' 5 1
  b4_2 := d.extractLsb' 2 3
  b1 := d.extractLsb' 1 1

/-- Ranges of a VMSAv9-128 stage 2 Block or Page descriptor (R241). -/
def V9LeafS2Ops.ofBits (d : Desc128) : V9LeafS2Ops where
  b127 := d.extractLsb' 127 1
  b126_125 := d.extractLsb' 125 2
  b124_121 := d.extractLsb' 121 4
  b120_119 := d.extractLsb' 119 2
  b118_115 := d.extractLsb' 115 4
  b114 := d.extractLsb' 114 1
  b113_112 := d.extractLsb' 112 2
  b111 := d.extractLsb' 111 1
  b110_109 := d.extractLsb' 109 2
  b108_101 := d.extractLsb' 101 8
  b100_91 := d.extractLsb' 91 10
  b90_56 := d.extractLsb' 56 35
  b55_12 := d.extractLsb' 12 44
  b11 := d.extractLsb' 11 1
  b10 := d.extractLsb' 10 1
  b9_8 := d.extractLsb' 8 2
  b7 := d.extractLsb' 7 1
  b6 := d.extractLsb' 6 1
  b5 := d.extractLsb' 5 1
  b4_2 := d.extractLsb' 2 3
  b1 := d.extractLsb' 1 1

/-! ### The decoder -/

/-- Why bytes decode to no format. -/
inductive DecodeReject where
  /-- The context is outside the spec (R46, R78, D15, D22). -/
  | context (r : CtxReject)
  /-- Fewer bytes than the system's descriptor length (R50). -/
  | tooFewBytes
  /-- A VMSAv8-64 Block where the source has no Block format (R152, D16). -/
  | noBlockFormat
  deriving DecidableEq, Repr

/-- The format of a VMSAv8-64 descriptor (R74, R100, R115, R130, R155, R180, R182, R184; R152). -/
def decodeV8 (c : Ctx) (d : Desc64) : Except DecodeReject Instr :=
  match classifyV8 c d with
  | .Invalid =>
    match c.stage with
    | .S1 => .ok (.v8InvalidS1 (d.extractLsb' 53 11) (d.extractLsb' 52 1) (d.extractLsb' 1 51))
    | .S2 => .ok (.v8InvalidS2 (d.extractLsb' 1 63))
  | .ReservedInvalid => .ok (.v8Reserved (d.extractLsb' 2 62))
  | .Table =>
    match c.stage with
    | .S1 => .ok (.v8TableS1 (.ofBits d))
    | .S2 => .ok (.v8TableS2 (.ofBits d))
  | .Page =>
    match c.stage with
    | .S1 => .ok (.v8PageS1 (.ofBits d) (d.extractLsb' 12 36))
    | .S2 => .ok (.v8PageS2 (.ofBits d) (d.extractLsb' 12 36))
  | .Block =>
    match blockShiftV8 c, c.stage with
    | none, _ => .error .noBlockFormat
    | some _, .S1 =>
      .ok (.v8BlockS1 (.ofBits d) (d.extractLsb' 17 31) (d.extractLsb' 16 1) (d.extractLsb' 12 4))
    | some _, .S2 =>
      .ok (.v8BlockS2 (.ofBits d) (d.extractLsb' 17 31) (d.extractLsb' 16 1) (d.extractLsb' 12 4))

/-- The format of a VMSAv9-128 descriptor (R76, R190, R205, R220, R240, R260). -/
def decodeV9 (c : Ctx) (d : Desc128) : Instr :=
  match classifyV9 c d with
  | .Invalid _ =>
    .v9Invalid (d.extractLsb' 115 13) (d.extractLsb' 114 1) (d.extractLsb' 1 113) (d.extractLsb' 0 1)
  | .Table =>
    match c.stage with
    | .S1 => .v9TableS1 (.ofBits d)
    | .S2 => .v9TableS2 (.ofBits d)
  | .BlockOrPage =>
    match c.stage with
    | .S1 => .v9BlockPageS1 (.ofBits d)
    | .S2 => .v9BlockPageS2 (.ofBits d)

/-- The format of a descriptor value in a context. -/
def decodeDesc (c : Ctx) (d : Desc) : Except DecodeReject Instr :=
  match c.check with
  | some r => .error (.context r)
  | none =>
    match d with
    | .d64 d => decodeV8 c d
    | .d128 d => .ok (decodeV9 c d)

/-- The format of the descriptor that the bytes, in address order, begin with. -/
def decode (c : Ctx) (bs : List Byte) : Except DecodeReject Instr :=
  if bs.length < c.system.bytes then .error .tooFewBytes
  else
    decodeDesc c
      (c.system.desc (bytesValue c.big_endian_walk (bs.take c.system.bytes)))

/-- The system a row of spec/opcode_table.json belongs to, by its width (R79). -/
def System.ofWidth (nbits : Nat) : System :=
  if nbits ≤ 64 then .VMSAv8_64 else .VMSAv9_128

/-- The instruction the decoder reads from the descriptor value `w` of a row `nbits` wide. The table's
rows share words and are told apart by the context (R79): the context here is that of `State.reset`,
with the system of the width (log entry 2). -/
def decodeTableWord (nbits w : Nat) : Option Instr :=
  let c : Ctx := { Ctx.reset with system := .ofWidth nbits }
  match decode c ((c.system.desc w).bytes c.big_endian_walk) with
  | .ok i => some i
  | .error _ => none

/-! ### The encoder -/

/-- The descriptor of a stage 1 VMSAv8-64 Table format (R101). -/
def V8TableS1Ops.toBits (o : V8TableS1Ops) : Desc64 :=
  o.b63 ++ o.b62_61 ++ o.b60 ++ o.b59 ++ o.b58_53 ++ o.b52 ++ o.b51 ++ o.b50 ++ o.b49_48
    ++ o.b47_12 ++ o.b11 ++ o.b10 ++ o.b9_8 ++ o.b7_2 ++ 0b11#2

/-- The descriptor of a stage 2 VMSAv8-64 Table format (R116). -/
def V8TableS2Ops.toBits (o : V8TableS2Ops) : Desc64 :=
  o.b63 ++ o.b62_59 ++ o.b58_51 ++ o.b50 ++ o.b49_48 ++ o.b47_12 ++ o.b11 ++ o.b10 ++ o.b9_8
    ++ o.b7_2 ++ 0b11#2

/-- A stage 1 VMSAv8-64 Block or Page descriptor from its shared ranges, bits [47:12] and the type
bits [1:0] (R130 to R133). -/
def V8LeafS1Ops.toBits (a : V8LeafS1Ops) (b47_12 : BitVec 36) (ty : BitVec 2) : Desc64 :=
  a.b63 ++ a.b62_60 ++ a.b59 ++ a.b58_55 ++ a.b54 ++ a.b53 ++ a.b52 ++ a.b51 ++ a.b50 ++ a.b49_48
    ++ b47_12 ++ a.b11 ++ a.b10 ++ a.b9_8 ++ a.b7 ++ a.b6 ++ a.b5 ++ a.b4_2 ++ ty

/-- A stage 2 VMSAv8-64 Block or Page descriptor (R155 to R157). -/
def V8LeafS2Ops.toBits (a : V8LeafS2Ops) (b47_12 : BitVec 36) (ty : BitVec 2) : Desc64 :=
  a.b63 ++ a.b62_60 ++ a.b59 ++ a.b58 ++ a.b57_56 ++ a.b55 ++ a.b54 ++ a.b53 ++ a.b52 ++ a.b51
    ++ a.b50 ++ a.b49_48 ++ b47_12 ++ a.b11 ++ a.b10 ++ a.b9_8 ++ a.b7 ++ a.b6 ++ a.b5 ++ a.b4_2
    ++ ty

/-- Bits [47:12] of a Block descriptor: Block[47:17], Block[16], Block[15:12] (R132). -/
def blockMiddle (b47_17 : BitVec 31) (b16 : Bit) (b15_12 : BitVec 4) : BitVec 36 :=
  b47_17 ++ b16 ++ b15_12

/-- The descriptor of a stage 1 VMSAv9-128 Table format (R191). -/
def V9TableS1Ops.toBits (o : V9TableS1Ops) : Desc128 :=
  o.b127 ++ o.b126_125 ++ o.b124_121 ++ o.b120_119 ++ o.b118_115 ++ o.b114 ++ o.b113 ++ o.b112
    ++ o.b111 ++ o.b110_109 ++ o.b108_101 ++ o.b100_91 ++ o.b90_56 ++ o.b55_12 ++ o.b11 ++ o.b10
    ++ o.b9_7 ++ o.b6 ++ o.b5_2 ++ o.b1 ++ 1#1

/-- The descriptor of a stage 2 VMSAv9-128 Table format (R206). -/
def V9TableS2Ops.toBits (o : V9TableS2Ops) : Desc128 :=
  o.b127 ++ o.b126_125 ++ o.b124_121 ++ o.b120_119 ++ o.b118_115 ++ o.b114 ++ o.b113_112 ++ o.b111
    ++ o.b110_109 ++ o.b108_101 ++ o.b100_91 ++ o.b90_56 ++ o.b55_12 ++ o.b11 ++ o.b10 ++ o.b9_7
    ++ o.b6 ++ o.b5_2 ++ o.b1 ++ 1#1

/-- The descriptor of a stage 1 VMSAv9-128 Block or Page format (R221). -/
def V9LeafS1Ops.toBits (o : V9LeafS1Ops) : Desc128 :=
  o.b127 ++ o.b126_125 ++ o.b124_121 ++ o.b120_119 ++ o.b118_115 ++ o.b114 ++ o.b113 ++ o.b112
    ++ o.b111 ++ o.b110_109 ++ o.b108_101 ++ o.b100_91 ++ o.b90_56 ++ o.b55_12 ++ o.b11 ++ o.b10
    ++ o.b9_8 ++ o.b7 ++ o.b6 ++ o.b5 ++ o.b4_2 ++ o.b1 ++ 1#1

/-- The descriptor of a stage 2 VMSAv9-128 Block or Page format (R241). -/
def V9LeafS2Ops.toBits (o : V9LeafS2Ops) : Desc128 :=
  o.b127 ++ o.b126_125 ++ o.b124_121 ++ o.b120_119 ++ o.b118_115 ++ o.b114 ++ o.b113_112 ++ o.b111
    ++ o.b110_109 ++ o.b108_101 ++ o.b100_91 ++ o.b90_56 ++ o.b55_12 ++ o.b11 ++ o.b10 ++ o.b9_8
    ++ o.b7 ++ o.b6 ++ o.b5 ++ o.b4_2 ++ o.b1 ++ 1#1

/-- The descriptor of a V9.INVALID format (R260). -/
def v9InvalidBits (b127_115 : BitVec 13) (b114 : Bit) (b113_1 : BitVec 113) (b0 : Bit) : Desc128 :=
  b127_115 ++ b114 ++ b113_1 ++ b0

/-- The descriptor value of an instruction. -/
def Instr.desc : Instr → Desc
  | .v8TableS1 o => .d64 o.toBits
  | .v8TableS2 o => .d64 o.toBits
  | .v8BlockS1 a b47_17 b16 b15_12 => .d64 (a.toBits (blockMiddle b47_17 b16 b15_12) 0b01#2)
  | .v8PageS1 a b47_12 => .d64 (a.toBits b47_12 0b11#2)
  | .v8BlockS2 a b47_17 b16 b15_12 => .d64 (a.toBits (blockMiddle b47_17 b16 b15_12) 0b01#2)
  | .v8PageS2 a b47_12 => .d64 (a.toBits b47_12 0b11#2)
  | .v8InvalidS1 b63_53 b52 b51_1 => .d64 (b63_53 ++ b52 ++ b51_1 ++ 0#1)
  | .v8InvalidS2 b63_1 => .d64 (b63_1 ++ 0#1)
  | .v8Reserved b63_2 => .d64 (b63_2 ++ 0b01#2)
  | .v9TableS1 o => .d128 o.toBits
  | .v9TableS2 o => .d128 o.toBits
  | .v9BlockPageS1 o => .d128 o.toBits
  | .v9BlockPageS2 o => .d128 o.toBits
  | .v9Invalid b127_115 b114 b113_1 b0 => .d128 (v9InvalidBits b127_115 b114 b113_1 b0)

/-- The bytes of an instruction in address order (R52). -/
def encode (big : Bool) (i : Instr) : List Byte := i.desc.bytes big

end Sys2Proof
end

