-- ==== Sys2Proof/Machine/Result.lean ====
section
/-! DEFINITION. What a decode yields: the descriptor type, the value of every field present under the
context, the meaning class of every bit range, the violation reports and the output address
(spec/00_scope.md R2, R6, R12; spec/30_encoding.md R70 to R73). A field that the context does not give
is `none`; a field without a condition is no `Option`. Field names are the spec's. -/

namespace Sys2Proof.Machine

/-- The field names of Tables D8-50 to D8-60 and the spec's own opaque software fields (R73). -/
inductive FieldName where
  | NLTA
  | OAB
  | NSTable
  | APTable
  | XNTable
  | UXNTable
  | PXNTable
  | Protected
  | AF
  | SKL
  | DisCH
  | nT
  | NS
  | NSE
  | AMEC
  | POIndex
  | PBHA
  | PIIndex
  | AttrIndx
  | MemAttr
  | XN
  | UXN
  | PXN
  | AP
  | S2AP
  | DBM
  | nDirty
  | Dirty
  | Contiguous
  | GP
  | nG
  | SH
  | AssuredOnly
  | FnXS
  | sw63
  | sw58
  | sw
  | sw_usage
  | smmu
  deriving DecidableEq, Repr

/-- The meaning class of a bit range under a context (R13, R70 to R73). -/
inductive BitClass where
  /-- The range holds bits `hi..lo` of a field. -/
  | field (f : FieldName) (hi lo : Nat)
  /-- "Reserved for software use" or "Software usage", exposed as an opaque field (R73). -/
  | software (f : FieldName) (hi lo : Nat)
  /-- "Reserved for use by a System MMU", exposed as an opaque field (R73). -/
  | systemMmu (f : FieldName) (hi lo : Nat)
  /-- RES0 (R70). -/
  | res0
  /-- RES1 (R71). -/
  | res1
  /-- IGNORED (R72). -/
  | ignored
  /-- A bit that the descriptor type fixes. -/
  | typeBit (v : Bool)
  /-- The source's table has no row for the range under this context (D14, D15, D17). -/
  | noRow
  deriving DecidableEq, Repr

/-- One row of a field table under a context: bits `hi..lo` of the descriptor and their class. -/
structure Row where
  hi : Nat
  lo : Nat
  cls : BitClass
  deriving DecidableEq, Repr

/-- The address kind of a next-level table (R54). -/
inductive AddrKind where
  | IPA
  | PA
  deriving DecidableEq, Repr

/-- `Table{…}` of V8.TABLE.S1 (R100). -/
structure V8TableS1 where
  NLTA : BitVec 52
  nlta_kind : AddrKind
  next_level : Int
  NSTable : Option Bit
  APTable : Option (BitVec 2)
  XNTable : Option Bit
  UXNTable : Option Bit
  PXNTable : Option Bit
  Protected : Option Bit
  AF : Option Bit
  deriving DecidableEq, Repr

/-- `Table{…}` of V8.TABLE.S2 (R115). -/
structure V8TableS2 where
  NLTA : BitVec 52
  nlta_kind : AddrKind
  next_level : Int
  AF : Option Bit
  deriving DecidableEq, Repr

/-- `Block{…}` or `Page{…}` of V8.BLOCK.S1 and V8.PAGE.S1 (R134 to R137, R153). -/
structure V8LeafS1 where
  OAB : BitVec 52
  n : Nat
  nT : Option Bit
  sw63 : Option Bit
  AMEC : Option Bit
  POIndex : Option (BitVec 3)
  PBHA3 : Option Bit
  PBHA2 : Option Bit
  PBHA1 : Option Bit
  PBHA0 : Option Bit
  AttrIndx3 : Option Bit
  sw : BitVec 4
  PIIndex : Option (BitVec 4)
  nDirty : Option Bit
  DBM : Option Bit
  AP2 : Option Bit
  AP1 : Option Bit
  XN : Option Bit
  UXN : Option Bit
  PXN : Option Bit
  Contiguous : Option Bit
  Protected : Option Bit
  GP : Option Bit
  NSE : Option Bit
  nG : Option Bit
  AF : Bit
  SH : Option (BitVec 2)
  NS : Option Bit
  AttrIndx2_0 : BitVec 3
  deriving DecidableEq, Repr

/-- `Block{…}` or `Page{…}` of V8.BLOCK.S2 and V8.PAGE.S2 (R158 to R162). -/
structure V8LeafS2 where
  OAB : BitVec 52
  n : Nat
  nT : Option Bit
  AMEC : Option Bit
  NS : Option Bit
  POIndex : Option (BitVec 4)
  PBHA3 : Option Bit
  PBHA2 : Option Bit
  PBHA1 : Option Bit
  PBHA0 : Option Bit
  smmu2 : Option Bit
  smmu1 : Option Bit
  smmu0 : Option Bit
  AssuredOnly : Option Bit
  sw58 : Option Bit
  sw : BitVec 2
  PIIndex : Option (BitVec 4)
  Dirty : Option Bit
  DBM : Option Bit
  S2AP : Option (BitVec 2)
  /-- The one-bit XN, without FEAT_XNX. -/
  XN : Option Bit
  /-- XN[1:0], with FEAT_XNX. -/
  XN1_0 : Option (BitVec 2)
  Contiguous : Bit
  FnXS : Option Bit
  AF : Bit
  SH : Option (BitVec 2)
  MemAttr3 : Option Bit
  MemAttr2_0 : BitVec 3
  deriving DecidableEq, Repr

/-- `Table{…}` of V9.TABLE.S1 (R190). -/
structure V9TableS1 where
  NLTA : BitVec 56
  nlta_kind : AddrKind
  SKL : BitVec 2
  next_level : Int
  NSTable : Option Bit
  Protected : Option Bit
  DisCH : Bit
  AF : Option Bit
  nT : Option Bit
  sw_usage : BitVec 10
  deriving DecidableEq, Repr

/-- `Table{…}` of V9.TABLE.S2 (R205). -/
structure V9TableS2 where
  NLTA : BitVec 56
  nlta_kind : AddrKind
  SKL : BitVec 2
  next_level : Int
  AF : Option Bit
  nT : Option Bit
  sw_usage : BitVec 10
  deriving DecidableEq, Repr

/-- `Block{…}` or `Page{…}` of V9.BLOCKPAGE.S1 (R227). `n` is none for a Block whose size parameter is
not given (R226). -/
structure V9LeafS1 where
  OAB : BitVec 56
  n : Option Nat
  SKL : BitVec 2
  NS : Option Bit
  POIndex : Option (BitVec 4)
  PIIndex : BitVec 4
  Protected : Option Bit
  GP : Bit
  Contiguous : Bit
  sw_usage : BitVec 10
  NSE : Option Bit
  nG : Option Bit
  AF : Bit
  SH : BitVec 2
  nDirty : Bit
  nT : Option Bit
  AttrIndx3 : Option Bit
  AttrIndx2_0 : BitVec 3
  deriving DecidableEq, Repr

/-- `Block{…}` or `Page{…}` of V9.BLOCKPAGE.S2 (R242). -/
structure V9LeafS2 where
  OAB : BitVec 56
  n : Option Nat
  SKL : BitVec 2
  NS : Option Bit
  POIndex : Option (BitVec 4)
  PIIndex : BitVec 4
  AssuredOnly : Option Bit
  Contiguous : Bit
  sw_usage : BitVec 10
  FnXS : Bit
  AF : Bit
  SH : BitVec 2
  Dirty : Bit
  nT : Option Bit
  MemAttr3 : Option Bit
  MemAttr2_0 : BitVec 3
  deriving DecidableEq, Repr

/-- The `result …` of a decode (R12): a type with its fields. Block and Page are separate for both
systems (R77; spec/90_conflicts.md C7). -/
inductive Result where
  /-- `Invalid{Protected?}` (R181, R183); `Invalid{reserved = true}` (R184). -/
  | v8Invalid (Protected : Option Bit) (reserved : Bool)
  /-- `Invalid{Protected?, cause}` (R261). -/
  | v9Invalid (Protected : Option Bit) (cause : InvalidCause)
  | v8TableS1 (f : V8TableS1)
  | v8TableS2 (f : V8TableS2)
  | v8BlockS1 (f : V8LeafS1)
  | v8PageS1 (f : V8LeafS1)
  | v8BlockS2 (f : V8LeafS2)
  | v8PageS2 (f : V8LeafS2)
  | v9TableS1 (f : V9TableS1)
  | v9TableS2 (f : V9TableS2)
  | v9BlockS1 (f : V9LeafS1)
  | v9PageS1 (f : V9LeafS1)
  | v9BlockS2 (f : V9LeafS2)
  | v9PageS2 (f : V9LeafS2)
  deriving DecidableEq, Repr

/-- The output address of a translation stage, where the decode forms one (R59). -/
inductive OutputAddress where
  /-- A Table or an Invalid descriptor has no output address (R270). -/
  | none
  /-- 48 or 52 bits, VMSAv8-64 (R150, R151). -/
  | oa52 (a : BitVec 52)
  /-- 56 bits, VMSAv9-128 (R226). -/
  | oa56 (a : BitVec 56)
  /-- A VMSAv9-128 Block whose size parameter is not given: the OA is not formed (R226, D19). -/
  | blockSizeNotGiven
  deriving DecidableEq, Repr

/-- All that a decode yields (R2, R70, R71). -/
structure Decoded where
  result : Result
  /-- The meaning class of every bit of the descriptor, from the high bits down. -/
  rows : List Row
  res0_violation : Bool
  res1_violation : Bool
  oa : OutputAddress
  deriving DecidableEq, Repr

/-- The descriptor type of a result (R2, R74, R76, R77). -/
inductive DescType where
  | Invalid
  | Table
  | Block
  | Page
  deriving DecidableEq, Repr

/-- The type of a result; a reserved descriptor is "treated as invalid" (R74, R184). -/
def Result.type : Result → DescType
  | .v8Invalid _ _ | .v9Invalid _ _ => .Invalid
  | .v8TableS1 _ | .v8TableS2 _ | .v9TableS1 _ | .v9TableS2 _ => .Table
  | .v8BlockS1 _ | .v8BlockS2 _ | .v9BlockS1 _ | .v9BlockS2 _ => .Block
  | .v8PageS1 _ | .v8PageS2 _ | .v9PageS1 _ | .v9PageS2 _ => .Page

/-! ### The value of a named field, bit by bit -/

/-- Bit `k` of a field that is present. -/
def bitOf {w : Nat} (v : BitVec w) (k : Nat) : Option Bool :=
  if k < w then some (v.getLsbD k) else none

/-- Bit `k` of a field that may be absent. -/
def bitOf? {w : Nat} (v : Option (BitVec w)) (k : Nat) : Option Bool :=
  match v with
  | some x => bitOf x k
  | none => none

/-- Bit `k` of a field of which each bit may be absent on its own. -/
def bitOfBits (vs : List (Option Bit)) (k : Nat) : Option Bool :=
  match vs, k with
  | [], _ => none
  | v :: _, 0 => bitOf? v 0
  | _ :: vs, k + 1 => bitOfBits vs k

/-- The present bits of a V8.TABLE.S1 result. -/
def V8TableS1.fieldBit (t : V8TableS1) (f : FieldName) (k : Nat) : Option Bool :=
  match f with
  | .NLTA => bitOf t.NLTA k
  | .NSTable => bitOf? t.NSTable k
  | .APTable => bitOf? t.APTable k
  | .XNTable => bitOf? t.XNTable k
  | .UXNTable => bitOf? t.UXNTable k
  | .PXNTable => bitOf? t.PXNTable k
  | .Protected => bitOf? t.Protected k
  | .AF => bitOf? t.AF k
  | _ => none

/-- The present bits of a V8.TABLE.S2 result. -/
def V8TableS2.fieldBit (t : V8TableS2) (f : FieldName) (k : Nat) : Option Bool :=
  match f with
  | .NLTA => bitOf t.NLTA k
  | .AF => bitOf? t.AF k
  | _ => none

/-- The present bits of a V8.BLOCK.S1 or V8.PAGE.S1 result. -/
def V8LeafS1.fieldBit (t : V8LeafS1) (f : FieldName) (k : Nat) : Option Bool :=
  match f with
  | .OAB => bitOf t.OAB k
  | .nT => bitOf? t.nT k
  | .sw63 => bitOf? t.sw63 k
  | .AMEC => bitOf? t.AMEC k
  | .POIndex => bitOf? t.POIndex k
  | .PBHA => bitOfBits [t.PBHA0, t.PBHA1, t.PBHA2, t.PBHA3] k
  | .AttrIndx => if k < 3 then bitOf t.AttrIndx2_0 k else bitOf? t.AttrIndx3 (k - 3)
  | .sw => bitOf t.sw k
  | .PIIndex => bitOf? t.PIIndex k
  | .nDirty => bitOf? t.nDirty k
  | .DBM => bitOf? t.DBM k
  | .AP => bitOfBits [none, t.AP1, t.AP2] k
  | .XN => bitOf? t.XN k
  | .UXN => bitOf? t.UXN k
  | .PXN => bitOf? t.PXN k
  | .Contiguous => bitOf? t.Contiguous k
  | .Protected => bitOf? t.Protected k
  | .GP => bitOf? t.GP k
  | .NSE => bitOf? t.NSE k
  | .nG => bitOf? t.nG k
  | .AF => bitOf t.AF k
  | .SH => bitOf? t.SH k
  | .NS => bitOf? t.NS k
  | _ => none

/-- The present bits of a V8.BLOCK.S2 or V8.PAGE.S2 result. -/
def V8LeafS2.fieldBit (t : V8LeafS2) (f : FieldName) (k : Nat) : Option Bool :=
  match f with
  | .OAB => bitOf t.OAB k
  | .nT => bitOf? t.nT k
  | .AMEC => bitOf? t.AMEC k
  | .NS => bitOf? t.NS k
  | .POIndex => bitOf? t.POIndex k
  | .PBHA => bitOfBits [t.PBHA0, t.PBHA1, t.PBHA2, t.PBHA3] k
  | .smmu => bitOfBits [t.smmu0, t.smmu1, t.smmu2] k
  | .AssuredOnly => bitOf? t.AssuredOnly k
  | .sw58 => bitOf? t.sw58 k
  | .sw => bitOf t.sw k
  | .PIIndex => bitOf? t.PIIndex k
  | .Dirty => bitOf? t.Dirty k
  | .DBM => bitOf? t.DBM k
  | .S2AP => bitOf? t.S2AP k
  | .XN =>
    match t.XN1_0 with
    | some x => bitOf x k
    | none => bitOf? t.XN k
  | .Contiguous => bitOf t.Contiguous k
  | .FnXS => bitOf? t.FnXS k
  | .AF => bitOf t.AF k
  | .SH => bitOf? t.SH k
  | .MemAttr => if k < 3 then bitOf t.MemAttr2_0 k else bitOf? t.MemAttr3 (k - 3)
  | _ => none

/-- The present bits of a V9.TABLE.S1 result. -/
def V9TableS1.fieldBit (t : V9TableS1) (f : FieldName) (k : Nat) : Option Bool :=
  match f with
  | .NLTA => bitOf t.NLTA k
  | .SKL => bitOf t.SKL k
  | .NSTable => bitOf? t.NSTable k
  | .Protected => bitOf? t.Protected k
  | .DisCH => bitOf t.DisCH k
  | .AF => bitOf? t.AF k
  | .nT => bitOf? t.nT k
  | .sw_usage => bitOf t.sw_usage k
  | _ => none

/-- The present bits of a V9.TABLE.S2 result. -/
def V9TableS2.fieldBit (t : V9TableS2) (f : FieldName) (k : Nat) : Option Bool :=
  match f with
  | .NLTA => bitOf t.NLTA k
  | .SKL => bitOf t.SKL k
  | .AF => bitOf? t.AF k
  | .nT => bitOf? t.nT k
  | .sw_usage => bitOf t.sw_usage k
  | _ => none

/-- The present bits of a V9.BLOCKPAGE.S1 result. -/
def V9LeafS1.fieldBit (t : V9LeafS1) (f : FieldName) (k : Nat) : Option Bool :=
  match f with
  | .OAB => bitOf t.OAB k
  | .SKL => bitOf t.SKL k
  | .NS => bitOf? t.NS k
  | .POIndex => bitOf? t.POIndex k
  | .PIIndex => bitOf t.PIIndex k
  | .Protected => bitOf? t.Protected k
  | .GP => bitOf t.GP k
  | .Contiguous => bitOf t.Contiguous k
  | .sw_usage => bitOf t.sw_usage k
  | .NSE => bitOf? t.NSE k
  | .nG => bitOf? t.nG k
  | .AF => bitOf t.AF k
  | .SH => bitOf t.SH k
  | .nDirty => bitOf t.nDirty k
  | .nT => bitOf? t.nT k
  | .AttrIndx => if k < 3 then bitOf t.AttrIndx2_0 k else bitOf? t.AttrIndx3 (k - 3)
  | _ => none

/-- The present bits of a V9.BLOCKPAGE.S2 result. -/
def V9LeafS2.fieldBit (t : V9LeafS2) (f : FieldName) (k : Nat) : Option Bool :=
  match f with
  | .OAB => bitOf t.OAB k
  | .SKL => bitOf t.SKL k
  | .NS => bitOf? t.NS k
  | .POIndex => bitOf? t.POIndex k
  | .PIIndex => bitOf t.PIIndex k
  | .AssuredOnly => bitOf? t.AssuredOnly k
  | .Contiguous => bitOf t.Contiguous k
  | .sw_usage => bitOf t.sw_usage k
  | .FnXS => bitOf t.FnXS k
  | .AF => bitOf t.AF k
  | .SH => bitOf t.SH k
  | .Dirty => bitOf t.Dirty k
  | .nT => bitOf? t.nT k
  | .MemAttr => if k < 3 then bitOf t.MemAttr2_0 k else bitOf? t.MemAttr3 (k - 3)
  | _ => none

/-- Bit `k` of the field `f` of a result, where the result has it. -/
def Result.fieldBit (r : Result) (f : FieldName) (k : Nat) : Option Bool :=
  match r with
  | .v8Invalid p _ | .v9Invalid p _ =>
    match f with
    | .Protected => bitOf? p k
    | _ => none
  | .v8TableS1 t => t.fieldBit f k
  | .v8TableS2 t => t.fieldBit f k
  | .v8BlockS1 t | .v8PageS1 t => t.fieldBit f k
  | .v8BlockS2 t | .v8PageS2 t => t.fieldBit f k
  | .v9TableS1 t => t.fieldBit f k
  | .v9TableS2 t => t.fieldBit f k
  | .v9BlockS1 t | .v9PageS1 t => t.fieldBit f k
  | .v9BlockS2 t | .v9PageS2 t => t.fieldBit f k

end Sys2Proof.Machine
end

