-- ==== Sys2Proof/Machine/State.lean ====
section
/-! DEFINITION. The state: the context, the memory that holds the descriptors, the inputs of one
decode, and the latch of its outcome (spec/10_state.md; INVENTORY.md, State). The spec's machine is a
pure function of a descriptor value and a context (R2): it has no register file, no program counter
and no flags (R40, R41, R42). -/

namespace Sys2Proof.Machine

/-- Memory: the bytes that have been written, addresses strictly rising. An address that is not listed
holds no value and reading it faults (log entry 3). -/
abbrev Memory := List Host.Cell

/-- Why a step stops with a fault. -/
inductive Fault where
  /-- Raised by `State.memRead`: a byte of the descriptor was never written, and the contents of memory
  at reset are unspecified (R45, R290). Safe: the model stops where hardware reads some value. -/
  | memoryNotWritten (addr : Nat)
  /-- Raised by `State.memRead`: a byte of the descriptor lies beyond the widest address the formats
  hold, 56 bits (R8, R57). Safe: the model stops. -/
  | addressBeyondSpace (addr : Nat)
  deriving DecidableEq, Repr

/-- Why a step or a meaning gives no effect. -/
inductive Refusal where
  /-- Raised by an arm of `exec` that has no meaning yet; no arm is left so. Safe. -/
  | notModelled (mnemonic : String)
  /-- Raised by every meaning and by the decoder: the context is outside the spec and R46, R78, D15,
  D22 refuse it. Safe. -/
  | context (r : CtxReject)
  /-- Raised by every meaning: the `require` of its decode rule does not hold, so the format does not
  apply to the context (R106, R117, R153, R162, R181, R183, R184, R195, R207, R227, R242, R261). A step
  never raises it, since the decoder picks the format that applies. Safe. -/
  | formatDoesNotApply
  /-- Raised by the meanings of V8.BLOCK.S1 and V8.BLOCK.S2 and by the decoder: the source has no Block
  format at this granule and level, and R152 refuses. Safe. -/
  | noBlockFormat
  deriving DecidableEq, Repr

/-- The state of the machine. -/
structure State where
  /-- The decode context (R20 to R38). -/
  ctx : Ctx
  /-- The memory that holds the translation tables (R43, R52). -/
  mem : Memory
  /-- The address of the descriptor to decode: supplied from outside (R56, D6; log entry 4). -/
  desc_addr : BitVec 56
  /-- The input address supplied to the translation stage (R43, R59; its width: log entry 6). -/
  ia : BitVec 64
  /-- What the last decode yielded, none before the first (R2). -/
  output : Option Decoded
  deriving DecidableEq, Repr

/-- The state right after reset. The spec states no reset value but `ctx.big_endian_walk = false`
(R45, R290): log entries 1 and 3 name the others. -/
def State.reset : State where
  ctx := Ctx.reset
  mem := []
  desc_addr := 0#56
  ia := 0#64
  output := none

end Sys2Proof.Machine
end

