-- ==== Sys2Proof/Machine/Ops.lean ====
section
/-! DEFINITION. The named operations over memory and state: `MemRead` (spec/20_memory.md R51, R52), the
store by which the outside world places a descriptor, and the one way a decode ends (R12). There is no
operation that takes an exception or returns from one: the source has no trap entry and no trap return
(spec/60_exceptions.md R270, R275). -/

namespace Sys2Proof.Machine

/-- The outcome of a step of this machine. -/
abbrev Outcome := Host.Outcome State Fault Refusal

/-! ### Memory -/

/-- The canonical form: addresses strictly rising. An unlisted address holds no value, so no listed
entry equals what an unlisted address reads as. -/
def Memory.wf : Memory → Bool
  | [] => true
  | [_] => true
  | (a, _) :: (b, y) :: m => decide (a < b) && Memory.wf ((b, y) :: m)

/-- The byte at an address, if one was written. -/
def Memory.read : Memory → Nat → Option Byte
  | [], _ => none
  | (b, y) :: m, a => if a = b then some y else Memory.read m a

/-- One byte stored, the canonical form kept. -/
def Memory.write : Memory → Nat → Byte → Memory
  | [], a, x => [(a, x)]
  | (b, y) :: m, a, x =>
    if a < b then (a, x) :: (b, y) :: m
    else if a = b then (a, x) :: m
    else (b, y) :: Memory.write m a x

/-- Bytes stored at consecutive addresses. -/
def Memory.writeBytes (m : Memory) (a : Nat) : List Byte → Memory
  | [] => m
  | x :: xs => Memory.writeBytes (m.write a x) (a + 1) xs

/-- The number of addresses: the widest address of the formats has 56 bits (R8). -/
def addressSpace : Nat := 2 ^ 56

/-- The byte at an address of the address space. -/
def State.readByte (s : State) (a : Nat) : Except Fault Byte :=
  if addressSpace ≤ a then .error (.addressBeyondSpace a)
  else
    match s.mem.read a with
    | some x => .ok x
    | none => .error (.memoryNotWritten a)

/-- `MemRead(addr, n)`: `n` bytes in address order, as one atomic read (R51, D5; log entry 7). -/
def State.memRead (s : State) (a : Nat) : Nat → Except Fault (List Byte)
  | 0 => .ok []
  | n + 1 =>
    match s.readByte a with
    | .error r => .error r
    | .ok x =>
      match s.memRead (a + 1) n with
      | .error r => .error r
      | .ok xs => .ok (x :: xs)

/-- The bytes of the descriptor to decode: 8 or 16 by the system (R50, R51). -/
def State.fetchBytes (s : State) : Except Fault (List Byte) :=
  s.memRead s.desc_addr.toNat s.ctx.system.bytes

/-- A descriptor placed in memory at an address, in the byte order of the context (R52). -/
def State.storeDesc (s : State) (a : Nat) (d : Desc) : State :=
  { s with mem := s.mem.writeBytes a (d.bytes s.ctx.big_endian_walk) }

/-! ### The end of a decode -/

/-- The outcome of a decode is latched; the decode writes nothing else (R20, R60, R61). -/
def State.deliver (s : State) (d : Decoded) : State := { s with output := some d }

/-- `require applies … result d` of a decode rule, in a context that passes the checks of R46. -/
def State.runFormat (s : State) (applies : Bool) (d : Decoded) : Outcome :=
  match s.ctx.check with
  | some r => .refused (.context r)
  | none => if applies then .next (s.deliver d) else .refused .formatDoesNotApply

/-- A decode whose rule also needs a value that may not exist: the OAB low bound of a Block format
(R151, R152), the cause of a VMSAv9-128 Invalid descriptor (R261). `why` is the refusal without it. -/
def State.runFormatWith {α : Type} (s : State) (applies : Bool) (x : Option α) (why : Refusal)
    (d : α → Decoded) : Outcome :=
  match s.ctx.check with
  | some r => .refused (.context r)
  | none =>
    if applies then
      match x with
      | some v => .next (s.deliver (d v))
      | none => .refused why
    else .refused .formatDoesNotApply

end Sys2Proof.Machine
end

