-- ==== Sys2Proof/Machine/Operands.lean ====
section
/-! DEFINITION. Every form in which a format reads its bits: conditional fields, the conditions that
several tables share, next-level table addresses, output address bases and output addresses
(spec/20_memory.md R54, R55, R59; spec/30_encoding.md R80; spec/40 to spec/44). -/

namespace Sys2Proof.Machine

/-- A field that is present under a condition. -/
def presentIf {α : Type} (p : Bool) (v : α) : Option α := if p then some v else none

/-! ### Conditions that several tables share -/

/-- The 4KB or 16KB granule with Effective DS = 1: the 52-bit layout (R104, R150). -/
def ds52 (c : Ctx) : Bool := !decide (c.granule = .G64K) && c.DS

/-- The 64KB granule with FEAT_LPA: bits [15:12] hold address bits [51:48] (R104, R150, R151). -/
def lpa64 (c : Ctx) : Bool := decide (c.granule = .G64K) && c.FEAT_LPA

/-- `nv11` of R103 and R136. Its branch gives bits [60], [59] of a Table and [54], [53] of a Block or Page
whatever `two_priv` is (spec/90_conflicts.md C8). -/
def nv11 (c : Ctx) : Bool := decide (c.regime = .EL1_0) && c.NV_NV1

/-- `pb(j)` of R135 and R159 for one of the enables of `ctx.pbha_en`. -/
def pbhaOn (c : Ctx) (en : Bool) : Bool := c.FEAT_HPDS2 && en

/-- Realm state in the EL2 or EL2&0 translation regime (R134, R227). -/
def realmEL2 (c : Ctx) : Bool :=
  decide (c.secstate = .Realm) && (decide (c.regime = .EL2) || decide (c.regime = .EL2_0))

/-- The Realm EL1&0 translation regime (R134, R207, R242). -/
def realmEL1 (c : Ctx) : Bool := decide (c.secstate = .Realm) && decide (c.regime = .EL1_0)

/-- `ns_present` of R134 and R227, stage 1. -/
def nsPresent (c : Ctx) : Bool :=
  decide (c.secstate = .Secure) || realmEL2 c || decide (c.secstate = .Root)

/-- Root state: bit [11] of a stage 1 Block or Page descriptor is NSE (R137, R227). -/
def nsePresent (c : Ctx) : Bool := decide (c.secstate = .Root)

/-- Bit [11] of a stage 1 Block or Page descriptor is nG (R137, R227). -/
def ngPresent (c : Ctx) : Bool := !decide (c.secstate = .Root) && c.two_priv && !c.FNG

/-! ### Tables -/

/-- `nlta_kind` of R54. -/
def nltaKind (c : Ctx) : AddrKind :=
  if c.stage = .S1 ∧ c.regime = .EL1_0 ∧ c.el2_enabled then .IPA else .PA

/-- `next_level` of R55 for Effective SKL 0, and of R195 for SKL not 0, which is general knowledge G4
(PRESUMED, log entry 9). The Effective SKL is the stored one (D18, log entry 8). -/
def nextLevel (c : Ctx) (skl : BitVec 2) : Int := c.level + skl.toNat + 1

/-! ### Addresses -/

/-- `m` of R24: the granule size is `2^m` bytes. -/
def granuleBits : Granule → Nat
  | .G4K => 12
  | .G16K => 14
  | .G64K => 16

/-- The address that bits [9:8], [49:48] and [47:12] of a VMSAv8-64 descriptor hold at granule size:
`nlta_v8` of R104 and the address of R150, which have one layout. In the 48-bit cases the top four bits
are zero, as R104 presents them. -/
def granuleAddrV8 (c : Ctx) (b49_48 : BitVec 2) (b47_12 : BitVec 36) (b9_8 : BitVec 2) :
    BitVec 52 :=
  match c.granule with
  | .G4K => if c.DS then b9_8 ++ b49_48 ++ b47_12 ++ 0#12 else 0#4 ++ b47_12 ++ 0#12
  | .G16K =>
    if c.DS then b9_8 ++ b49_48 ++ b47_12.extractLsb' 2 34 ++ 0#14
    else 0#4 ++ b47_12.extractLsb' 2 34 ++ 0#14
  | .G64K =>
    if c.FEAT_LPA then b47_12.extractLsb' 0 4 ++ b47_12.extractLsb' 4 32 ++ 0#16
    else 0#4 ++ b47_12.extractLsb' 4 32 ++ 0#16

/-- `nlta_v8` (R104). -/
def nltaV8 (c : Ctx) (b49_48 : BitVec 2) (b47_12 : BitVec 36) (b9_8 : BitVec 2) : BitVec 52 :=
  granuleAddrV8 c b49_48 b47_12 b9_8

/-- The OAB of `oab_page_v8` (R150). -/
def oabPageV8 (c : Ctx) (b49_48 : BitVec 2) (b47_12 : BitVec 36) (b9_8 : BitVec 2) : BitVec 52 :=
  granuleAddrV8 c b49_48 b47_12 b9_8

/-- `hi4` of R151: OAB[51:48] of a Block descriptor. -/
def blockHi4 (c : Ctx) (b49_48 : BitVec 2) (b15_12 : BitVec 4) (b9_8 : BitVec 2) : BitVec 4 :=
  match c.granule with
  | .G4K | .G16K => if c.DS then b9_8 ++ b49_48 else 0#4
  | .G64K => if c.FEAT_LPA then b15_12 else 0#4

/-- The OAB of `oab_block_v8` (R151): `hi4 : d[47:n] : zeros(n)`. -/
def oabBlockV8 (c : Ctx) (n : Nat) (b49_48 : BitVec 2) (b47_17 : BitVec 31) (b15_12 : BitVec 4)
    (b9_8 : BitVec 2) : BitVec 52 :=
  blockHi4 c b49_48 b15_12 b9_8 ++ (((b47_17 ++ 0#17 : BitVec 48) >>> n) <<< n)

/-- `nlta_v9` (R194) and `oab_v9` (R226): `d[55:m] : zeros(m)`. -/
def granuleAddrV9 (c : Ctx) (b55_12 : BitVec 44) : BitVec 56 :=
  match c.granule with
  | .G4K => b55_12 ++ 0#12
  | .G16K => b55_12.extractLsb' 2 42 ++ 0#14
  | .G64K => b55_12.extractLsb' 4 40 ++ 0#16

/-- `nlta_v9` (R194). -/
def nltaV9 (c : Ctx) (b55_12 : BitVec 44) : BitVec 56 := granuleAddrV9 c b55_12

/-- `oab_v9` (R226). -/
def oabV9 (c : Ctx) (b55_12 : BitVec 44) : BitVec 56 := granuleAddrV9 c b55_12

/-- `OA = base[top:n] : IA[n-1:0]` (R59). -/
def formOA {w : Nat} (base : BitVec w) (n : Nat) (ia : BitVec 64) : BitVec w :=
  ((base >>> n) <<< n) ||| (ia.setWidth w &&& ~~~(BitVec.allOnes w <<< n))

/-- `n` of a VMSAv9-128 Page (`m`) or Block (the parameter `ctx.v9_block_shift`), R226. -/
def shiftV9 (c : Ctx) : Option Nat :=
  if c.level = 3 then some (granuleBits c.granule) else c.v9_block_shift.shift c.granule c.level

/-- The output address of a VMSAv9-128 Block or Page: `OAB[55:n] : IA[n-1:0]` (R59; the `d[55:n]` of
R226 is OAB[55:n] for every `n` that is not below `m`); not formed for a Block whose size parameter is
not given (R226, D19). -/
def oaV9 (c : Ctx) (oab : BitVec 56) (ia : BitVec 64) : OutputAddress :=
  match shiftV9 c with
  | some n => .oa56 (formOA oab n ia)
  | none => .blockSizeNotGiven

end Sys2Proof.Machine
end

