-- ==== Sys2Proof/Machine/FieldTables.lean ====
section
/-! DEFINITION. The field tables D8-50 to D8-60 under a context: the meaning class of every bit range,
from the high bits down (spec rules R101, R116, R131 to R133, R156, R157, R180, R182, R191, R206, R221,
R241, R260, with the winners of overlapping rows that R82, R103, R134 to R137, R158 to R161 fix). The
ranges of a table tile the descriptor. -/

namespace Sys2Proof.Machine

/-- A single-bit field. -/
def bitField (f : FieldName) : BitClass := .field f 0 0

/-- The class under a condition, else another. -/
def classIf (p : Bool) (a b : BitClass) : BitClass := if p then a else b

/-! ### Ranges that several tables share -/

/-- Bits [49:48] of a valid VMSAv8-64 descriptor, for the address field `f`. -/
def row49_48 (c : Ctx) (f : FieldName) : Row := ⟨49, 48, classIf (ds52 c) (.field f 49 48) .res0⟩

/-- Bits [47:12] of a VMSAv8-64 Table or Page descriptor, for the address field `f`. -/
def rows47_12 (c : Ctx) (f : FieldName) : List Row :=
  match c.granule with
  | .G4K => [⟨47, 12, .field f 47 12⟩]
  | .G16K => [⟨47, 14, .field f 47 14⟩, ⟨13, 12, .res0⟩]
  | .G64K => [⟨47, 16, .field f 47 16⟩, ⟨15, 12, classIf c.FEAT_LPA (.field f 51 48) .res0⟩]

/-- Bits [47:12] of a VMSAv8-64 Block descriptor whose OAB has the low bound `n` (R132, R157). -/
def rowsBlock47_12 (c : Ctx) (n : Nat) : List Row :=
  [⟨47, n, .field .OAB 47 n⟩, ⟨n - 1, 17, .res0⟩,
   ⟨16, 16, classIf c.FEAT_BBML1 (bitField .nT) .res0⟩,
   ⟨15, 12, classIf (lpa64 c) (.field .OAB 51 48) .res0⟩]

/-- Bits [11:0] of a VMSAv8-64 Table descriptor, either stage (R101, R116). -/
def rowsV8TableLow (c : Ctx) : List Row :=
  [⟨11, 11, .ignored⟩,
   ⟨10, 10, classIf c.hw_table_af (bitField .AF) .ignored⟩,
   ⟨9, 8, classIf (ds52 c) (.field .NLTA 51 50) .ignored⟩,
   ⟨7, 2, .ignored⟩, ⟨1, 1, .typeBit true⟩, ⟨0, 0, .typeBit true⟩]

/-- Bits [9:8] of a VMSAv8-64 Block or Page descriptor, either stage (R133, R157). -/
def rowLeaf9_8 (c : Ctx) : Row := ⟨9, 8, classIf (ds52 c) (.field .OAB 51 50) (.field .SH 1 0)⟩

/-- Bit [11] of a stage 1 Block or Page descriptor of either system (R133, R137, R221, R227). -/
def rowS1Leaf11 (c : Ctx) : Row :=
  ⟨11, 11, classIf (decide (c.secstate = .Root)) (bitField .NSE)
    (classIf c.two_priv (classIf c.FNG .ignored (bitField .nG)) .res0)⟩

/-- Bits [55:12] of a valid VMSAv9-128 descriptor, for the address field `f` (R194, R226). -/
def rows55_12 (c : Ctx) (f : FieldName) : List Row :=
  match c.granule with
  | .G4K => [⟨55, 12, .field f 55 12⟩]
  | .G16K => [⟨55, 14, .field f 55 14⟩, ⟨13, 12, .res0⟩]
  | .G64K => [⟨55, 16, .field f 55 16⟩, ⟨15, 12, .res0⟩]

/-- Bits [110:56] of a valid VMSAv9-128 descriptor. -/
def rows110_56 : List Row :=
  [⟨110, 109, .field .SKL 1 0⟩, ⟨108, 101, .res0⟩, ⟨100, 91, .software .sw_usage 9 0⟩,
   ⟨90, 56, .res0⟩]

/-- Bit [6] of a valid VMSAv9-128 descriptor: nT when SKL is not 0b00. -/
def rowV9nT (skl : BitVec 2) : Row := ⟨6, 6, classIf (!decide (skl = 0#2)) (bitField .nT) .res0⟩

/-! ### VMSAv8-64 -/

/-- Table D8-50 (R101, with R102, R103, R105). Bit [59] as PXNTable is general knowledge G5 (PRESUMED,
log entry 10); bits [62:59] have no row without hierarchical permissions (D14). Bit [60] under `nv11` is
PXNTable (C8, log entry 21). -/
def rowsV8TableS1 (c : Ctx) : List Row :=
  [⟨63, 63, classIf (decide (c.secstate = .Secure)) (bitField .NSTable) .res0⟩,
   ⟨62, 61, classIf c.hier_perm (.field .APTable 1 0) .noRow⟩,
   ⟨60, 60, classIf c.hier_perm
      (classIf (nv11 c) (bitField .PXNTable)
        (classIf c.two_priv (bitField .UXNTable) (bitField .XNTable))) .noRow⟩,
   ⟨59, 59, classIf c.hier_perm
      (classIf (nv11 c) .res0 (classIf c.two_priv (bitField .PXNTable) .res0)) .noRow⟩,
   ⟨58, 53, .ignored⟩,
   ⟨52, 52, classIf c.PnCH (bitField .Protected) .ignored⟩,
   ⟨51, 51, .ignored⟩, ⟨50, 50, .res0⟩, row49_48 c .NLTA]
  ++ rows47_12 c .NLTA ++ rowsV8TableLow c

/-- Table D8-51 (R116). -/
def rowsV8TableS2 (c : Ctx) : List Row :=
  [⟨63, 63, .res0⟩, ⟨62, 59, classIf c.s2_indirect .ignored .res0⟩, ⟨58, 51, .ignored⟩,
   ⟨50, 50, .res0⟩, row49_48 c .NLTA]
  ++ rows47_12 c .NLTA ++ rowsV8TableLow c

/-- Bit [63] of a stage 1 VMSAv8-64 Block or Page descriptor (R131, R134). `ns` is the descriptor's bit
[5]. There is no row in Root state (D15), nor in Realm state in the EL3 regime, which R131 does not name
(log entry 12). -/
def classV8LeafS1Bit63 (c : Ctx) (ns : Bit) : BitClass :=
  match c.secstate, c.regime with
  | .Secure, _ => .ignored
  | .NonSecure, _ => .software .sw63 0 0
  | .Realm, .EL1_0 => .software .sw63 0 0
  | .Realm, .EL2 => classIf (decide (ns = 0#1)) (bitField .AMEC) .res0
  | .Realm, .EL2_0 => classIf (decide (ns = 0#1)) (bitField .AMEC) .res0
  | .Realm, .EL3 => .noRow
  | .Root, _ => .noRow

/-- Table D8-52, bits [63:48] (R131, with R134 to R137). `ns` is the descriptor's bit [5]. POIndex
and AttrIndx[3] win over PBHA (D13, log entry 11); bit [54] under `nv11` is PXN (C8, log entry 21). -/
def rowsV8LeafS1High (c : Ctx) (ns : Bit) : List Row :=
  [⟨63, 63, classV8LeafS1Bit63 c ns⟩,
   ⟨62, 62, classIf c.s1_overlay (.field .POIndex 2 2)
      (classIf (pbhaOn c c.pbha_en.b62) (.field .PBHA 3 3) .ignored)⟩,
   ⟨61, 61, classIf c.s1_overlay (.field .POIndex 1 1)
      (classIf (pbhaOn c c.pbha_en.b61) (.field .PBHA 2 2) .ignored)⟩,
   ⟨60, 60, classIf c.s1_overlay (.field .POIndex 0 0)
      (classIf (pbhaOn c c.pbha_en.b60) (.field .PBHA 1 1) .ignored)⟩,
   ⟨59, 59, classIf c.aie_en (.field .AttrIndx 3 3)
      (classIf (pbhaOn c c.pbha_en.b59) (.field .PBHA 0 0) .ignored)⟩,
   ⟨58, 55, .software .sw 3 0⟩,
   ⟨54, 54, classIf c.s1_indirect (.field .PIIndex 3 3)
      (classIf (nv11 c) (bitField .PXN) (classIf c.two_priv (bitField .UXN) (bitField .XN)))⟩,
   ⟨53, 53, classIf c.s1_indirect (.field .PIIndex 2 2)
      (classIf (nv11 c) .res0 (classIf c.two_priv (bitField .PXN) .res0))⟩,
   ⟨52, 52, classIf c.PnCH (bitField .Protected) (bitField .Contiguous)⟩,
   ⟨51, 51, classIf c.s1_indirect (.field .PIIndex 1 1) (bitField .DBM)⟩,
   ⟨50, 50, classIf c.FEAT_BTI (bitField .GP) .res0⟩,
   row49_48 c .OAB]

/-- Table D8-52, bits [11:0] (R133, with R134, R136, R137). Without indirect permissions bit [6] is AP[1]
with two privilege levels and RES1 with one (R71, R133), under `nv11` too, where R136 gives AP[1] with the
note that the regime supports two (DEDUCED, log entry 23). -/
def rowsV8LeafS1Low (c : Ctx) (bit1 : Bool) : List Row :=
  [rowS1Leaf11 c, ⟨10, 10, bitField .AF⟩, rowLeaf9_8 c,
   ⟨7, 7, classIf c.s1_indirect (bitField .nDirty) (.field .AP 2 2)⟩,
   ⟨6, 6, classIf c.s1_indirect (.field .PIIndex 0 0) (classIf c.two_priv (.field .AP 1 1) .res1)⟩,
   ⟨5, 5, classIf (nsPresent c) (bitField .NS) .res0⟩,
   ⟨4, 2, .field .AttrIndx 2 0⟩, ⟨1, 1, .typeBit bit1⟩, ⟨0, 0, .typeBit true⟩]

/-- Table D8-52 for a Block descriptor with OAB low bound `n`. -/
def rowsV8BlockS1 (c : Ctx) (ns : Bit) (n : Nat) : List Row :=
  rowsV8LeafS1High c ns ++ rowsBlock47_12 c n ++ rowsV8LeafS1Low c false

/-- Table D8-52 for a Page descriptor. -/
def rowsV8PageS1 (c : Ctx) (ns : Bit) : List Row :=
  rowsV8LeafS1High c ns ++ rows47_12 c .OAB ++ rowsV8LeafS1Low c true

/-- Table D8-53, bits [63:48] (R156, with R158 to R160). `ns` is the descriptor's bit [55]. The IGNORED
row of bit [59] is read as the complement of the PBHA[0] row (spec/90_conflicts.md C1). -/
def rowsV8LeafS2High (c : Ctx) (ns : Bit) : List Row :=
  [⟨63, 63, classIf (decide (c.secstate = .Realm))
      (classIf (decide (ns = 0#1)) (bitField .AMEC) .res0) .res0⟩,
   ⟨62, 62, classIf c.s2_overlay (.field .POIndex 3 3)
      (classIf (pbhaOn c c.pbha_en.b62) (.field .PBHA 3 3) (.systemMmu .smmu 2 2))⟩,
   ⟨61, 61, classIf c.s2_overlay (.field .POIndex 2 2)
      (classIf (pbhaOn c c.pbha_en.b61) (.field .PBHA 2 2) (.systemMmu .smmu 1 1))⟩,
   ⟨60, 60, classIf c.s2_overlay (.field .POIndex 1 1)
      (classIf (pbhaOn c c.pbha_en.b60) (.field .PBHA 1 1) (.systemMmu .smmu 0 0))⟩,
   ⟨59, 59, classIf c.s2_overlay (.field .POIndex 0 0)
      (classIf (pbhaOn c c.pbha_en.b59) (.field .PBHA 0 0) .ignored)⟩,
   ⟨58, 58, classIf c.AssuredOnly (bitField .AssuredOnly) (.software .sw58 0 0)⟩,
   ⟨57, 56, .software .sw 1 0⟩,
   ⟨55, 55, classIf (decide (c.secstate = .Realm)) (bitField .NS) .ignored⟩,
   ⟨54, 54, classIf c.s2_indirect (.field .PIIndex 3 3)
      (classIf c.FEAT_XNX (.field .XN 1 1) (bitField .XN))⟩,
   ⟨53, 53, classIf c.s2_indirect (.field .PIIndex 2 2) (classIf c.FEAT_XNX (.field .XN 0 0) .res0)⟩,
   ⟨52, 52, bitField .Contiguous⟩,
   ⟨51, 51, classIf c.s2_indirect (.field .PIIndex 1 1) (bitField .DBM)⟩,
   ⟨50, 50, .res0⟩,
   row49_48 c .OAB]

/-- Table D8-53, bits [11:0] (R157, with R160, R161). -/
def rowsV8LeafS2Low (c : Ctx) (bit1 : Bool) : List Row :=
  [⟨11, 11, classIf c.FEAT_XS (bitField .FnXS) .res0⟩, ⟨10, 10, bitField .AF⟩, rowLeaf9_8 c,
   ⟨7, 7, classIf c.s2_indirect (bitField .Dirty) (.field .S2AP 1 1)⟩,
   ⟨6, 6, classIf c.s2_indirect (.field .PIIndex 0 0) (.field .S2AP 0 0)⟩,
   ⟨5, 5, classIf c.FWB .res0 (.field .MemAttr 3 3)⟩,
   ⟨4, 2, .field .MemAttr 2 0⟩, ⟨1, 1, .typeBit bit1⟩, ⟨0, 0, .typeBit true⟩]

/-- Table D8-53 for a Block descriptor with OAB low bound `n`. -/
def rowsV8BlockS2 (c : Ctx) (ns : Bit) (n : Nat) : List Row :=
  rowsV8LeafS2High c ns ++ rowsBlock47_12 c n ++ rowsV8LeafS2Low c false

/-- Table D8-53 for a Page descriptor. -/
def rowsV8PageS2 (c : Ctx) (ns : Bit) : List Row :=
  rowsV8LeafS2High c ns ++ rows47_12 c .OAB ++ rowsV8LeafS2Low c true

/-- Table D8-54 (R180). -/
def rowsV8InvalidS1 (c : Ctx) : List Row :=
  [⟨63, 53, .ignored⟩, ⟨52, 52, classIf c.PnCH (bitField .Protected) .ignored⟩, ⟨51, 1, .ignored⟩,
   ⟨0, 0, .typeBit false⟩]

/-- Table D8-55 (R182). -/
def rowsV8InvalidS2 : List Row := [⟨63, 1, .ignored⟩, ⟨0, 0, .typeBit false⟩]

/-- The reserved encoding has no field table (R184, D17): its type bits are those of Table D8-48. -/
def rowsV8Reserved : List Row := [⟨63, 2, .noRow⟩, ⟨1, 1, .typeBit false⟩, ⟨0, 0, .typeBit true⟩]

/-! ### VMSAv9-128 -/

/-- The stage 1 VMSAv9-128 Table descriptor table (R191). -/
def rowsV9TableS1 (c : Ctx) (skl : BitVec 2) : List Row :=
  [⟨127, 127, classIf (decide (c.secstate = .Secure)) (bitField .NSTable) .res0⟩,
   ⟨126, 125, .res0⟩, ⟨124, 121, classIf c.s1_overlay .ignored .res0⟩, ⟨120, 119, .res0⟩,
   ⟨118, 115, .ignored⟩, ⟨114, 114, classIf c.FEAT_THE (bitField .Protected) .res0⟩,
   ⟨113, 113, .ignored⟩, ⟨112, 112, bitField .DisCH⟩, ⟨111, 111, .ignored⟩]
  ++ rows110_56 ++ rows55_12 c .NLTA ++
  [⟨11, 11, classIf (c.two_priv || decide (c.secstate = .Root)) .ignored .res0⟩,
   ⟨10, 10, classIf c.hw_table_af (bitField .AF) .ignored⟩, ⟨9, 7, .ignored⟩, rowV9nT skl,
   ⟨5, 2, .ignored⟩, ⟨1, 1, .res0⟩, ⟨0, 0, .typeBit true⟩]

/-- Table D8-57 (R206). -/
def rowsV9TableS2 (c : Ctx) (skl : BitVec 2) : List Row :=
  [⟨127, 127, classIf (realmEL1 c) .ignored .res0⟩,
   ⟨126, 125, .res0⟩, ⟨124, 121, classIf c.s2_overlay .ignored .res0⟩, ⟨120, 119, .res0⟩,
   ⟨118, 115, .ignored⟩, ⟨114, 114, classIf c.FEAT_THE .ignored .res0⟩,
   ⟨113, 112, .res0⟩, ⟨111, 111, .ignored⟩]
  ++ rows110_56 ++ rows55_12 c .NLTA ++
  [⟨11, 11, .ignored⟩,
   ⟨10, 10, classIf c.hw_table_af (bitField .AF) .ignored⟩, ⟨9, 7, .ignored⟩, rowV9nT skl,
   ⟨5, 2, .ignored⟩, ⟨1, 1, .res0⟩, ⟨0, 0, .typeBit true⟩]

/-- Table D8-58 (R221). -/
def rowsV9LeafS1 (c : Ctx) (skl : BitVec 2) : List Row :=
  [⟨127, 127, classIf (nsPresent c) (bitField .NS) .res0⟩,
   ⟨126, 125, .res0⟩, ⟨124, 121, classIf c.s1_overlay (.field .POIndex 3 0) .res0⟩,
   ⟨120, 119, .res0⟩, ⟨118, 115, .field .PIIndex 3 0⟩,
   ⟨114, 114, classIf c.FEAT_THE (bitField .Protected) .res0⟩,
   ⟨113, 113, bitField .GP⟩, ⟨112, 112, .ignored⟩, ⟨111, 111, bitField .Contiguous⟩]
  ++ rows110_56 ++ rows55_12 c .OAB ++
  [rowS1Leaf11 c, ⟨10, 10, bitField .AF⟩, ⟨9, 8, .field .SH 1 0⟩, ⟨7, 7, bitField .nDirty⟩,
   rowV9nT skl, ⟨5, 5, classIf c.aie_en (.field .AttrIndx 3 3) .ignored⟩,
   ⟨4, 2, .field .AttrIndx 2 0⟩, ⟨1, 1, .res0⟩, ⟨0, 0, .typeBit true⟩]

/-- Table D8-59 (R241). Its bit [0] is 1 (spec/90_conflicts.md C2). -/
def rowsV9LeafS2 (c : Ctx) (skl : BitVec 2) : List Row :=
  [⟨127, 127, classIf (realmEL1 c) (bitField .NS) .res0⟩,
   ⟨126, 125, .res0⟩, ⟨124, 121, classIf c.s2_overlay (.field .POIndex 3 0) .res0⟩,
   ⟨120, 119, .res0⟩, ⟨118, 115, .field .PIIndex 3 0⟩,
   ⟨114, 114, classIf c.FEAT_THE (bitField .AssuredOnly) .res0⟩,
   ⟨113, 112, .res0⟩, ⟨111, 111, bitField .Contiguous⟩]
  ++ rows110_56 ++ rows55_12 c .OAB ++
  [⟨11, 11, bitField .FnXS⟩, ⟨10, 10, bitField .AF⟩, ⟨9, 8, .field .SH 1 0⟩,
   ⟨7, 7, bitField .Dirty⟩, rowV9nT skl, ⟨5, 5, classIf c.FWB .res0 (.field .MemAttr 3 3)⟩,
   ⟨4, 2, .field .MemAttr 2 0⟩, ⟨1, 1, .res0⟩, ⟨0, 0, .typeBit true⟩]

/-- Table D8-60 for bit [0] = 0; an Invalid descriptor with bit [0] = 1 has no field table (R260). -/
def rowsV9Invalid (c : Ctx) (b0 : Bit) : List Row :=
  if b0 = 0#1 then
    [⟨127, 115, .ignored⟩,
     ⟨114, 114, classIf (decide (c.stage = .S1) && c.FEAT_THE) (bitField .Protected) .ignored⟩,
     ⟨113, 1, .ignored⟩, ⟨0, 0, .typeBit false⟩]
  else [⟨127, 1, .noRow⟩, ⟨0, 0, .typeBit true⟩]

end Sys2Proof.Machine
end

