-- ==== Sys2Proof/Machine/Flags.lean ====
section
/-! DEFINITION. The two reports of a decode (spec/30_encoding.md R70, R71; spec/60_exceptions.md R272).
The source has no condition flags (spec/10_state.md R42). -/

namespace Sys2Proof.Machine

/-- The row is RES0. -/
def Row.isRes0 (r : Row) : Bool :=
  match r.cls with
  | .res0 => true
  | _ => false

/-- The row is RES1. -/
def Row.isRes1 (r : Row) : Bool :=
  match r.cls with
  | .res1 => true
  | _ => false

/-- Some bit of the row is 1 in the descriptor. -/
def Row.someOne {w : Nat} (r : Row) (d : BitVec w) : Bool :=
  !decide (d.extractLsb' r.lo (r.hi + 1 - r.lo) = 0#(r.hi + 1 - r.lo))

/-- Some bit of the row is 0 in the descriptor. -/
def Row.someZero {w : Nat} (r : Row) (d : BitVec w) : Bool :=
  !decide (d.extractLsb' r.lo (r.hi + 1 - r.lo) = BitVec.allOnes (r.hi + 1 - r.lo))

/-- `res0_violation`: some bit that is RES0 under the context is 1 (R70). -/
def res0Violation {w : Nat} (rows : List Row) (d : BitVec w) : Bool :=
  rows.any fun r => r.isRes0 && r.someOne d

/-- `res1_violation`: some bit that is RES1 under the context is 0 (R71). -/
def res1Violation {w : Nat} (rows : List Row) (d : BitVec w) : Bool :=
  rows.any fun r => r.isRes1 && r.someZero d

/-- What a decode yields, its reports computed from the field table (R70, R71). -/
def report {w : Nat} (result : Result) (rows : List Row) (d : BitVec w) (oa : OutputAddress) :
    Decoded where
  result := result
  rows := rows
  res0_violation := res0Violation rows d
  res1_violation := res1Violation rows d
  oa := oa

end Sys2Proof.Machine
end

