-- ==== Sys2Proof/Machine/V8BlockPage.lean ====
section
/-! DEFINITION. The VMSAv8-64 Block and Page descriptors, stage 1 and stage 2
(spec/41_v8_64_block_page.md). -/

namespace Sys2Proof.Machine

/-! ### Stage 1 -/

/-- The fields of a stage 1 Block or Page descriptor (R134 to R137), with its address part: OAB, the low
bound `n`, and nT, which a Page has not (R150, R151). AP[1] is read with two privilege levels only, under
`nv11` too (R71, R133, R136; log entry 23). -/
def fieldsV8LeafS1 (c : Ctx) (a : V8LeafS1Ops) (oab : BitVec 52) (n : Nat) (nT : Option Bit) :
    V8LeafS1 where
  OAB := oab
  n := n
  nT := nT
  sw63 := presentIf (decide (c.secstate = .NonSecure) || realmEL1 c) a.b63
  AMEC := presentIf (realmEL2 c && decide (a.b5 = 0#1)) a.b63
  POIndex := presentIf c.s1_overlay a.b62_60
  PBHA3 := presentIf (!c.s1_overlay && pbhaOn c c.pbha_en.b62) (a.b62_60.extractLsb' 2 1)
  PBHA2 := presentIf (!c.s1_overlay && pbhaOn c c.pbha_en.b61) (a.b62_60.extractLsb' 1 1)
  PBHA1 := presentIf (!c.s1_overlay && pbhaOn c c.pbha_en.b60) (a.b62_60.extractLsb' 0 1)
  PBHA0 := presentIf (!c.aie_en && pbhaOn c c.pbha_en.b59) a.b59
  AttrIndx3 := presentIf c.aie_en a.b59
  sw := a.b58_55
  PIIndex := presentIf c.s1_indirect (a.b54 ++ a.b53 ++ a.b51 ++ a.b6)
  nDirty := presentIf c.s1_indirect a.b7
  DBM := presentIf (!c.s1_indirect) a.b51
  AP2 := presentIf (!c.s1_indirect) a.b7
  AP1 := presentIf (!c.s1_indirect && c.two_priv) a.b6
  XN := presentIf (!c.s1_indirect && !nv11 c && !c.two_priv) a.b54
  UXN :=
    if c.s1_indirect then none
    else if nv11 c then some 0#1
    else presentIf c.two_priv a.b54
  PXN :=
    if c.s1_indirect then none
    else if nv11 c then some a.b54
    else presentIf c.two_priv a.b53
  Contiguous := presentIf (!c.PnCH) a.b52
  Protected := presentIf c.PnCH a.b52
  GP := presentIf c.FEAT_BTI a.b50
  NSE := presentIf (nsePresent c) a.b11
  nG := presentIf (ngPresent c) a.b11
  AF := a.b10
  SH := presentIf (!ds52 c) a.b9_8
  NS := presentIf (nsPresent c) a.b5
  AttrIndx2_0 := a.b4_2

/-- `decode_v8_blockpage_s1` (R153) for a Block: the address part is `oab_block_v8` (R151, R152). -/
def execV8BlockS1 (a : V8LeafS1Ops) (b47_17 : BitVec 31) (b16 : Bit) (b15_12 : BitVec 4)
    (s : State) : Outcome :=
  s.runFormatWith (s.ctx.isFor .VMSAv8_64 .S1 && decide (s.ctx.level < 3)) (blockShiftV8 s.ctx)
    .noBlockFormat fun n =>
      let oab := oabBlockV8 s.ctx n a.b49_48 b47_17 b15_12 a.b9_8
      report
        (.v8BlockS1 (fieldsV8LeafS1 s.ctx a oab n (presentIf s.ctx.FEAT_BBML1 b16)))
        (rowsV8BlockS1 s.ctx a.b5 n)
        (a.toBits (blockMiddle b47_17 b16 b15_12) 0b01#2)
        (.oa52 (formOA oab n s.ia))

/-- `decode_v8_blockpage_s1` (R153) for a Page: the address part is `oab_page_v8` (R150). -/
def execV8PageS1 (a : V8LeafS1Ops) (b47_12 : BitVec 36) (s : State) : Outcome :=
  let n := granuleBits s.ctx.granule
  let oab := oabPageV8 s.ctx a.b49_48 b47_12 a.b9_8
  s.runFormat (s.ctx.isFor .VMSAv8_64 .S1 && decide (s.ctx.level = 3))
    (report (.v8PageS1 (fieldsV8LeafS1 s.ctx a oab n none)) (rowsV8PageS1 s.ctx a.b5)
      (a.toBits b47_12 0b11#2) (.oa52 (formOA oab n s.ia)))

/-! ### Stage 2 -/

/-- The fields of a stage 2 Block or Page descriptor (R158 to R161), with its address part. -/
def fieldsV8LeafS2 (c : Ctx) (a : V8LeafS2Ops) (oab : BitVec 52) (n : Nat) (nT : Option Bit) :
    V8LeafS2 where
  OAB := oab
  n := n
  nT := nT
  AMEC := presentIf (decide (c.secstate = .Realm) && decide (a.b55 = 0#1)) a.b63
  NS := presentIf (decide (c.secstate = .Realm)) a.b55
  POIndex := presentIf c.s2_overlay (a.b62_60 ++ a.b59)
  PBHA3 := presentIf (!c.s2_overlay && pbhaOn c c.pbha_en.b62) (a.b62_60.extractLsb' 2 1)
  PBHA2 := presentIf (!c.s2_overlay && pbhaOn c c.pbha_en.b61) (a.b62_60.extractLsb' 1 1)
  PBHA1 := presentIf (!c.s2_overlay && pbhaOn c c.pbha_en.b60) (a.b62_60.extractLsb' 0 1)
  PBHA0 := presentIf (!c.s2_overlay && pbhaOn c c.pbha_en.b59) a.b59
  smmu2 := presentIf (!c.s2_overlay && !pbhaOn c c.pbha_en.b62) (a.b62_60.extractLsb' 2 1)
  smmu1 := presentIf (!c.s2_overlay && !pbhaOn c c.pbha_en.b61) (a.b62_60.extractLsb' 1 1)
  smmu0 := presentIf (!c.s2_overlay && !pbhaOn c c.pbha_en.b60) (a.b62_60.extractLsb' 0 1)
  AssuredOnly := presentIf c.AssuredOnly a.b58
  sw58 := presentIf (!c.AssuredOnly) a.b58
  sw := a.b57_56
  PIIndex := presentIf c.s2_indirect (a.b54 ++ a.b53 ++ a.b51 ++ a.b6)
  Dirty := presentIf c.s2_indirect a.b7
  DBM := presentIf (!c.s2_indirect) a.b51
  S2AP := presentIf (!c.s2_indirect) (a.b7 ++ a.b6)
  XN := presentIf (!c.s2_indirect && !c.FEAT_XNX) a.b54
  XN1_0 := presentIf (!c.s2_indirect && c.FEAT_XNX) (a.b54 ++ a.b53)
  Contiguous := a.b52
  FnXS := presentIf c.FEAT_XS a.b11
  AF := a.b10
  SH := presentIf (!ds52 c) a.b9_8
  MemAttr3 := presentIf (!c.FWB) a.b5
  MemAttr2_0 := a.b4_2

/-- `decode_v8_blockpage_s2` (R162) for a Block. -/
def execV8BlockS2 (a : V8LeafS2Ops) (b47_17 : BitVec 31) (b16 : Bit) (b15_12 : BitVec 4)
    (s : State) : Outcome :=
  s.runFormatWith (s.ctx.isFor .VMSAv8_64 .S2 && decide (s.ctx.level < 3)) (blockShiftV8 s.ctx)
    .noBlockFormat fun n =>
      let oab := oabBlockV8 s.ctx n a.b49_48 b47_17 b15_12 a.b9_8
      report
        (.v8BlockS2 (fieldsV8LeafS2 s.ctx a oab n (presentIf s.ctx.FEAT_BBML1 b16)))
        (rowsV8BlockS2 s.ctx a.b55 n)
        (a.toBits (blockMiddle b47_17 b16 b15_12) 0b01#2)
        (.oa52 (formOA oab n s.ia))

/-- `decode_v8_blockpage_s2` (R162) for a Page. -/
def execV8PageS2 (a : V8LeafS2Ops) (b47_12 : BitVec 36) (s : State) : Outcome :=
  let n := granuleBits s.ctx.granule
  let oab := oabPageV8 s.ctx a.b49_48 b47_12 a.b9_8
  s.runFormat (s.ctx.isFor .VMSAv8_64 .S2 && decide (s.ctx.level = 3))
    (report (.v8PageS2 (fieldsV8LeafS2 s.ctx a oab n none)) (rowsV8PageS2 s.ctx a.b55)
      (a.toBits b47_12 0b11#2) (.oa52 (formOA oab n s.ia)))

end Sys2Proof.Machine
end

