-- ==== Sys2Proof/Machine/V8Invalid.lean ====
section
/-! DEFINITION. The VMSAv8-64 Invalid descriptor and the reserved encoding (spec/42_v8_64_invalid.md).
What an access that reaches one does is not in the source: the outcome is the abstract `Invalid` and
there is no output address (R185, R270). -/

namespace Sys2Proof.Machine

/-- `decode_v8_invalid_s1` (R181). -/
def execV8InvalidS1 (b63_53 : BitVec 11) (b52 : Bit) (b51_1 : BitVec 51) (s : State) : Outcome :=
  s.runFormat (s.ctx.isFor .VMSAv8_64 .S1)
    (report (.v8Invalid (presentIf s.ctx.PnCH b52) false) (rowsV8InvalidS1 s.ctx)
      (b63_53 ++ b52 ++ b51_1 ++ 0#1 : Desc64) .none)

/-- `decode_v8_invalid_s2` (R183). -/
def execV8InvalidS2 (b63_1 : BitVec 63) (s : State) : Outcome :=
  s.runFormat (s.ctx.isFor .VMSAv8_64 .S2)
    (report (.v8Invalid none false) rowsV8InvalidS2 (b63_1 ++ 0#1 : Desc64) .none)

/-- `decode_v8_reserved` (R184), either stage: no field is extracted (D17). -/
def execV8Reserved (b63_2 : BitVec 62) (s : State) : Outcome :=
  s.runFormat (decide (s.ctx.system = .VMSAv8_64) && decide (s.ctx.level = 3))
    (report (.v8Invalid none true) rowsV8Reserved (b63_2 ++ 0b01#2 : Desc64) .none)

end Sys2Proof.Machine
end

