-- ==== Sys2Proof/Machine/V8Table.lean ====
section
/-! DEFINITION. The VMSAv8-64 Table descriptor, stage 1 and stage 2 (spec/40_v8_64_table.md). -/

namespace Sys2Proof.Machine

/-- The fields of V8.TABLE.S1 (R102 to R105). Bit [59] as PXNTable is general knowledge G5 (PRESUMED,
log entry 10). -/
def fieldsV8TableS1 (c : Ctx) (o : V8TableS1Ops) : V8TableS1 where
  NLTA := nltaV8 c o.b49_48 o.b47_12 o.b9_8
  nlta_kind := nltaKind c
  next_level := nextLevel c 0#2
  NSTable := presentIf (decide (c.secstate = .Secure)) o.b63
  APTable := presentIf c.hier_perm (if nv11 c then o.b62_61.extractLsb' 1 1 ++ 0#1 else o.b62_61)
  XNTable := presentIf (c.hier_perm && !nv11 c && !c.two_priv) o.b60
  UXNTable := presentIf (c.hier_perm && !nv11 c && c.two_priv) o.b60
  PXNTable :=
    if c.hier_perm then
      (if nv11 c then some o.b60 else if c.two_priv then some o.b59 else none)
    else none
  Protected := presentIf c.PnCH o.b52
  AF := presentIf c.hw_table_af o.b10

/-- `decode_v8_table_s1` (R106). -/
def execV8TableS1 (o : V8TableS1Ops) (s : State) : Outcome :=
  s.runFormat (s.ctx.isFor .VMSAv8_64 .S1 && decide (s.ctx.level < 3))
    (report (.v8TableS1 (fieldsV8TableS1 s.ctx o)) (rowsV8TableS1 s.ctx) o.toBits .none)

/-- The fields of V8.TABLE.S2 (R117): the next-level table address is a PA. -/
def fieldsV8TableS2 (c : Ctx) (o : V8TableS2Ops) : V8TableS2 where
  NLTA := nltaV8 c o.b49_48 o.b47_12 o.b9_8
  nlta_kind := .PA
  next_level := nextLevel c 0#2
  AF := presentIf c.hw_table_af o.b10

/-- `decode_v8_table_s2` (R117). -/
def execV8TableS2 (o : V8TableS2Ops) (s : State) : Outcome :=
  s.runFormat (s.ctx.isFor .VMSAv8_64 .S2 && decide (s.ctx.level < 3))
    (report (.v8TableS2 (fieldsV8TableS2 s.ctx o)) (rowsV8TableS2 s.ctx) o.toBits .none)

end Sys2Proof.Machine
end

