-- ==== Sys2Proof/Machine/V9BlockPage.lean ====
section
/-! DEFINITION. The VMSAv9-128 Block and Page descriptors, stage 1 and stage 2
(spec/44_v9_128_block_page.md). One format for both: it is a Page at level 3, a Block below (R77). -/

namespace Sys2Proof.Machine

/-- The `require` of R227 and R242: level + SKL equal to 3 and a permitted block size (R76). -/
def v9IsLeaf (c : Ctx) (skl : BitVec 2) : Bool :=
  decide (classifyV9Skl c true skl = .BlockOrPage)

/-- The fields of V9.BLOCKPAGE.S1 (R227). -/
def fieldsV9LeafS1 (c : Ctx) (o : V9LeafS1Ops) : V9LeafS1 where
  OAB := oabV9 c o.b55_12
  n := shiftV9 c
  SKL := o.b110_109
  NS := presentIf (nsPresent c) o.b127
  POIndex := presentIf c.s1_overlay o.b124_121
  PIIndex := o.b118_115
  Protected := presentIf c.FEAT_THE o.b114
  GP := o.b113
  Contiguous := o.b111
  sw_usage := o.b100_91
  NSE := presentIf (nsePresent c) o.b11
  nG := presentIf (ngPresent c) o.b11
  AF := o.b10
  SH := o.b9_8
  nDirty := o.b7
  nT := presentIf (!decide (o.b110_109 = 0#2)) o.b6
  AttrIndx3 := presentIf c.aie_en o.b5
  AttrIndx2_0 := o.b4_2

/-- `decode_v9_blockpage_s1` (R227). -/
def execV9BlockPageS1 (o : V9LeafS1Ops) (s : State) : Outcome :=
  let f := fieldsV9LeafS1 s.ctx o
  s.runFormat (s.ctx.isFor .VMSAv9_128 .S1 && v9IsLeaf s.ctx o.b110_109)
    (report (if s.ctx.level = 3 then .v9PageS1 f else .v9BlockS1 f)
      (rowsV9LeafS1 s.ctx o.b110_109) o.toBits (oaV9 s.ctx f.OAB s.ia))

/-- The fields of V9.BLOCKPAGE.S2 (R242). -/
def fieldsV9LeafS2 (c : Ctx) (o : V9LeafS2Ops) : V9LeafS2 where
  OAB := oabV9 c o.b55_12
  n := shiftV9 c
  SKL := o.b110_109
  NS := presentIf (realmEL1 c) o.b127
  POIndex := presentIf c.s2_overlay o.b124_121
  PIIndex := o.b118_115
  AssuredOnly := presentIf c.FEAT_THE o.b114
  Contiguous := o.b111
  sw_usage := o.b100_91
  FnXS := o.b11
  AF := o.b10
  SH := o.b9_8
  Dirty := o.b7
  nT := presentIf (!decide (o.b110_109 = 0#2)) o.b6
  MemAttr3 := presentIf (!c.FWB) o.b5
  MemAttr2_0 := o.b4_2

/-- `decode_v9_blockpage_s2` (R242). -/
def execV9BlockPageS2 (o : V9LeafS2Ops) (s : State) : Outcome :=
  let f := fieldsV9LeafS2 s.ctx o
  s.runFormat (s.ctx.isFor .VMSAv9_128 .S2 && v9IsLeaf s.ctx o.b110_109)
    (report (if s.ctx.level = 3 then .v9PageS2 f else .v9BlockS2 f)
      (rowsV9LeafS2 s.ctx o.b110_109) o.toBits (oaV9 s.ctx f.OAB s.ia))

end Sys2Proof.Machine
end

