-- ==== Sys2Proof/Machine/V9Invalid.lean ====
section
/-! DEFINITION. The VMSAv9-128 Invalid descriptor (spec/45_v9_128_invalid.md): its outcome is the
abstract `Invalid` with the spec's cause label, and there is no output address (R261, R270). -/

namespace Sys2Proof.Machine

/-- Protected of an Invalid descriptor: only with bit [0] = 0, at stage 1, with FEAT_THE (R261, D17). -/
def v9InvalidProtected (c : Ctx) (b114 b0 : Bit) : Option Bit :=
  presentIf (decide (b0 = 0#1) && decide (c.stage = .S1) && c.FEAT_THE) b114

/-- The cause label of an Invalid descriptor; none where the descriptor is not Invalid (R76, R261). -/
def v9InvalidCause (c : Ctx) (d : Desc128) : Option InvalidCause :=
  match classifyV9 c d with
  | .Invalid cause => some cause
  | .Table => none
  | .BlockOrPage => none

/-- `decode_v9_invalid` (R261). -/
def execV9Invalid (b127_115 : BitVec 13) (b114 : Bit) (b113_1 : BitVec 113) (b0 : Bit)
    (s : State) : Outcome :=
  s.runFormatWith (decide (s.ctx.system = .VMSAv9_128))
    (v9InvalidCause s.ctx (v9InvalidBits b127_115 b114 b113_1 b0)) .formatDoesNotApply fun cause =>
      report (.v9Invalid (v9InvalidProtected s.ctx b114 b0) cause) (rowsV9Invalid s.ctx b0)
        (v9InvalidBits b127_115 b114 b113_1 b0) .none

end Sys2Proof.Machine
end

