-- ==== Sys2Proof/Machine/V9Table.lean ====
section
/-! DEFINITION. The VMSAv9-128 Table descriptor, stage 1 and stage 2 (spec/43_v9_128_table.md). -/

namespace Sys2Proof.Machine

/-- The `require` of R195 and R207: level + SKL below 3 and a permitted table size (R76). -/
def v9IsTable (c : Ctx) (skl : BitVec 2) : Bool :=
  decide (classifyV9Skl c true skl = .Table)

/-- The fields of V9.TABLE.S1 (R195). -/
def fieldsV9TableS1 (c : Ctx) (o : V9TableS1Ops) : V9TableS1 where
  NLTA := nltaV9 c o.b55_12
  nlta_kind := nltaKind c
  SKL := o.b110_109
  next_level := nextLevel c o.b110_109
  NSTable := presentIf (decide (c.secstate = .Secure)) o.b127
  Protected := presentIf c.FEAT_THE o.b114
  DisCH := o.b112
  AF := presentIf c.hw_table_af o.b10
  nT := presentIf (!decide (o.b110_109 = 0#2)) o.b6
  sw_usage := o.b100_91

/-- `decode_v9_table_s1` (R195). -/
def execV9TableS1 (o : V9TableS1Ops) (s : State) : Outcome :=
  s.runFormat (s.ctx.isFor .VMSAv9_128 .S1 && v9IsTable s.ctx o.b110_109)
    (report (.v9TableS1 (fieldsV9TableS1 s.ctx o)) (rowsV9TableS1 s.ctx o.b110_109) o.toBits .none)

/-- The fields of V9.TABLE.S2 (R207): the next-level table address is a PA. -/
def fieldsV9TableS2 (c : Ctx) (o : V9TableS2Ops) : V9TableS2 where
  NLTA := nltaV9 c o.b55_12
  nlta_kind := .PA
  SKL := o.b110_109
  next_level := nextLevel c o.b110_109
  AF := presentIf c.hw_table_af o.b10
  nT := presentIf (!decide (o.b110_109 = 0#2)) o.b6
  sw_usage := o.b100_91

/-- `decode_v9_table_s2` (R207). -/
def execV9TableS2 (o : V9TableS2Ops) (s : State) : Outcome :=
  s.runFormat (s.ctx.isFor .VMSAv9_128 .S2 && v9IsTable s.ctx o.b110_109)
    (report (.v9TableS2 (fieldsV9TableS2 s.ctx o)) (rowsV9TableS2 s.ctx o.b110_109) o.toBits .none)

end Sys2Proof.Machine
end

