-- ==== Sys2Proof/Machine/Dispatch.lean ====
section
/-! DEFINITION. The meaning of every format, by one arm each. -/

namespace Sys2Proof.Machine

def exec (i : Instr) (s : State) : Host.Outcome State Fault Refusal :=
  match i with
  | .v8TableS1 o => Sys2Proof.Machine.execV8TableS1 o s
  | .v8TableS2 o => Sys2Proof.Machine.execV8TableS2 o s
  | .v8BlockS1 a m nt lo => Sys2Proof.Machine.execV8BlockS1 a m nt lo s
  | .v8PageS1 a m => Sys2Proof.Machine.execV8PageS1 a m s
  | .v8BlockS2 a m nt lo => Sys2Proof.Machine.execV8BlockS2 a m nt lo s
  | .v8PageS2 a m => Sys2Proof.Machine.execV8PageS2 a m s
  | .v8InvalidS1 h p l => Sys2Proof.Machine.execV8InvalidS1 h p l s
  | .v8InvalidS2 h => Sys2Proof.Machine.execV8InvalidS2 h s
  | .v8Reserved h => Sys2Proof.Machine.execV8Reserved h s
  | .v9TableS1 o => Sys2Proof.Machine.execV9TableS1 o s
  | .v9TableS2 o => Sys2Proof.Machine.execV9TableS2 o s
  | .v9BlockPageS1 o => Sys2Proof.Machine.execV9BlockPageS1 o s
  | .v9BlockPageS2 o => Sys2Proof.Machine.execV9BlockPageS2 o s
  | .v9Invalid h p l v => Sys2Proof.Machine.execV9Invalid h p l v s

end Sys2Proof.Machine
end

