-- ==== Sys2Proof/Machine/Step.lean ====
section
/-! DEFINITION. One step: the descriptor at the address supplied is read, decoded in the context, and
its decode rule run (spec/00_scope.md R2; spec/20_memory.md R51, R52). -/

namespace Sys2Proof.Machine

/-- The refusal of a step whose bytes decode to no format. The third case has no reason of its own: a
step always hands the decoder as many bytes as the system's descriptor has. -/
def refusalOf : DecodeReject → Refusal
  | .context r => .context r
  | .noBlockFormat => .noBlockFormat
  | .tooFewBytes => .formatDoesNotApply

/-- One step: read, decode, run. The state keeps the descriptor's address: there is no program counter
and no walk (R41, R56, D2, D6). -/
def step (s : State) : Host.Outcome State Fault Refusal :=
  match s.fetchBytes with
  | .error r => .fault r
  | .ok bs =>
    match decode s.ctx bs with
    | .error r => .refused (refusalOf r)
    | .ok i => exec i s

/-- Where a descriptor of the longest format fits in the address space: the address supplied, or
address 0 where that is too near the top. -/
def State.withRoom (s : State) : State :=
  if s.desc_addr.toNat + 16 ≤ addressSpace then s else { s with desc_addr := 0#56 }

/-- The state with the descriptor value `w` of a row `nbits` wide placed where `step` reads its next
descriptor. It stands for the outside world supplying a descriptor; the width selects the translation
system (R79; log entry 2). -/
def State.withFetchWord (s : State) (nbits w : Nat) : State :=
  let s' := { s.withRoom with ctx := { s.ctx with system := .ofWidth nbits } }
  s'.storeDesc s'.desc_addr.toNat ((System.ofWidth nbits).desc w)

end Sys2Proof.Machine
end

