-- ==== Sys2Proof/Safety.lean ====
section
/-! DEFINITION. What counts as sound: the coherence of a latched outcome, the invariant of the machine,
and the "no violation" premise that spec/92_eei_decisions.md D11 recommends to every claim. -/

namespace Sys2Proof.Machine

/-- The rows tile bits `top..0`, from the high bits down, with no gap and no overlap. -/
def rowsTile : Nat → List Row → Bool
  | _, [] => false
  | top, [r] => decide (r.hi = top) && decide (r.lo = 0)
  | top, r :: r' :: rs =>
    decide (r.hi = top) && decide (r.lo ≤ r.hi) && decide (1 ≤ r.lo) && rowsTile (r.lo - 1) (r' :: rs)

/-- The descriptor's top bit number, by the system a result belongs to (R79). -/
def Result.topBit : Result → Nat
  | .v8Invalid _ _ | .v8TableS1 _ | .v8TableS2 _ | .v8BlockS1 _ | .v8PageS1 _ | .v8BlockS2 _
  | .v8PageS2 _ => 63
  | .v9Invalid _ _ | .v9TableS1 _ | .v9TableS2 _ | .v9BlockS1 _ | .v9PageS1 _ | .v9BlockS2 _
  | .v9PageS2 _ => 127

/-- The output address fits the result: none for a Table or an Invalid descriptor (R270); for a
VMSAv8-64 Block or Page, above bit `n` it is OAB (R59); for a VMSAv9-128 one the same, and only a Block
may lack it (R226). -/
def Result.oaFits (r : Result) (oa : OutputAddress) : Bool :=
  match r with
  | .v8Invalid _ _ | .v9Invalid _ _ | .v8TableS1 _ | .v8TableS2 _ | .v9TableS1 _ | .v9TableS2 _ =>
    decide (oa = .none)
  | .v8BlockS1 f | .v8PageS1 f =>
    match oa with
    | .oa52 a => decide (a >>> f.n = f.OAB >>> f.n) && decide (f.OAB.setWidth f.n = 0#f.n)
    | _ => false
  | .v8BlockS2 f | .v8PageS2 f =>
    match oa with
    | .oa52 a => decide (a >>> f.n = f.OAB >>> f.n) && decide (f.OAB.setWidth f.n = 0#f.n)
    | _ => false
  | .v9PageS1 f =>
    match oa, f.n with
    | .oa56 a, some n => decide (a >>> n = f.OAB >>> n) && decide (f.OAB.setWidth n = 0#n)
    | _, _ => false
  | .v9PageS2 f =>
    match oa, f.n with
    | .oa56 a, some n => decide (a >>> n = f.OAB >>> n) && decide (f.OAB.setWidth n = 0#n)
    | _, _ => false
  | .v9BlockS1 f =>
    match oa, f.n with
    | .oa56 a, some n => decide (a >>> n = f.OAB >>> n)
    | .blockSizeNotGiven, none => true
    | _, _ => false
  | .v9BlockS2 f =>
    match oa, f.n with
    | .oa56 a, some n => decide (a >>> n = f.OAB >>> n)
    | .blockSizeNotGiven, none => true
    | _, _ => false

/-- The next-level table of a Table result: its address has its low 12 bits zero (R53) and its level is
-1 to 3 (R55; with SKL not 0 general knowledge G4, log entry 9). -/
def Result.tableFits : Result → Bool
  | .v8TableS1 t =>
    decide (t.NLTA.setWidth 12 = 0#12) && decide (-1 ≤ t.next_level) && decide (t.next_level ≤ 3)
  | .v8TableS2 t =>
    decide (t.NLTA.setWidth 12 = 0#12) && decide (-1 ≤ t.next_level) && decide (t.next_level ≤ 3)
  | .v9TableS1 t =>
    decide (t.NLTA.setWidth 12 = 0#12) && decide (-1 ≤ t.next_level) && decide (t.next_level ≤ 3)
  | .v9TableS2 t =>
    decide (t.NLTA.setWidth 12 = 0#12) && decide (-1 ≤ t.next_level) && decide (t.next_level ≤ 3)
  | _ => true

/-- Violation reports are computed only for valid formats (R274), and RES1 occurs only in the stage 1
VMSAv8-64 Block and Page formats (R71). -/
def Decoded.reportsFit (d : Decoded) : Bool :=
  match d.result with
  | .v8Invalid _ _ | .v9Invalid _ _ => !d.res0_violation && !d.res1_violation
  | .v8BlockS1 _ | .v8PageS1 _ => true
  | _ => !d.res1_violation

/-- A latched outcome is coherent. -/
def Decoded.coherent (d : Decoded) : Bool :=
  rowsTile d.result.topBit d.rows && d.result.oaFits d.oa && d.result.tableFits && d.reportsFit

/-- The invariant of the machine: memory in its canonical form and a coherent outcome latch. -/
def State.inv (s : State) : Bool :=
  s.mem.wf &&
  match s.output with
  | none => true
  | some d => d.coherent

/-- "No violation": the premise under which the model's result for a descriptor is supported by the
source (D11). -/
def Decoded.clean (d : Decoded) : Bool := !d.res0_violation && !d.res1_violation

end Sys2Proof.Machine
end

