-- ==== Sys2Proof/Certificates/Slice0/Obligations.lean ====
section
/-! DEFINITION. The statements for the provers. `Claims` holds the shared words they are written in:
hypotheses on the state and the descriptor, and the spec's pseudocode over the descriptor's bits. -/

namespace Sys2Proof.Claims

open Sys2Proof.Machine

/-- `d[k]` (R9). -/
abbrev db {w : Nat} (d : BitVec w) (k : Nat) : Bit := d.extractLsb' k 1

/-- Some bit of a range is 1. -/
def some1 {w : Nat} (x : BitVec w) : Bool := !decide (x = 0#w)

/-- A field under a condition. -/
def iff' {α : Type} (p : Bool) (v : α) : Option α := if p then some v else none

/-- An accepted VMSAv8-64 context of a stage. -/
def V8At (s : State) (st : Stage) : Prop :=
  s.ctx.wf = true ∧ s.ctx.system = .VMSAv8_64 ∧ s.ctx.stage = st

/-- An accepted VMSAv9-128 context of a stage. -/
def V9At (s : State) (st : Stage) : Prop :=
  s.ctx.wf = true ∧ s.ctx.system = .VMSAv9_128 ∧ s.ctx.stage = st

/-- The descriptor decodes to the instruction, and running it latches the outcome and changes nothing
else of the state. -/
def Yields (s : State) (d : Desc) (i : Instr) (dec : Decoded) : Prop :=
  decodeDesc s.ctx d = .ok i ∧ exec i s = .next { s with output := some dec }

/-- `nv11` (R103, R136). -/
def nv11At (c : Ctx) : Bool := decide (c.regime = .EL1_0) && c.NV_NV1

/-- The 4KB or 16KB granule with DS = 1. -/
def wideDS (c : Ctx) : Bool := decide (c.granule = .G4K ∨ c.granule = .G16K) && c.DS

/-- The 64KB granule with FEAT_LPA. -/
def wideLPA (c : Ctx) : Bool := decide (c.granule = .G64K) && c.FEAT_LPA

/-- `nlta_v8` (R104) and the address of `oab_page_v8` (R150) over the descriptor's bits. -/
def addrV8 (c : Ctx) (d : Desc64) : BitVec 52 :=
  match c.granule, c.DS, c.FEAT_LPA with
  | .G4K, true, _ => d.extractLsb' 8 2 ++ d.extractLsb' 48 2 ++ d.extractLsb' 12 36 ++ 0#12
  | .G4K, false, _ => 0#4 ++ d.extractLsb' 12 36 ++ 0#12
  | .G16K, true, _ => d.extractLsb' 8 2 ++ d.extractLsb' 48 2 ++ d.extractLsb' 14 34 ++ 0#14
  | .G16K, false, _ => 0#4 ++ d.extractLsb' 14 34 ++ 0#14
  | .G64K, _, true => d.extractLsb' 12 4 ++ d.extractLsb' 16 32 ++ 0#16
  | .G64K, _, false => 0#4 ++ d.extractLsb' 16 32 ++ 0#16

/-- Some RES0 bit of the address region of a Table or Page descriptor is 1 (R104, R150). -/
def addrRes0V8 (c : Ctx) (d : Desc64) : Bool :=
  match c.granule, c.DS, c.FEAT_LPA with
  | .G4K, true, _ => false
  | .G4K, false, _ => some1 (d.extractLsb' 48 2)
  | .G16K, true, _ => some1 (d.extractLsb' 12 2)
  | .G16K, false, _ => some1 (d.extractLsb' 48 2) || some1 (d.extractLsb' 12 2)
  | .G64K, _, true => some1 (d.extractLsb' 48 2)
  | .G64K, _, false => some1 (d.extractLsb' 48 2) || some1 (d.extractLsb' 12 4)

/-- `nlta_v9` (R194) and `oab_v9` (R226) over the descriptor's bits. -/
def addrV9 (c : Ctx) (d : Desc128) : BitVec 56 :=
  match c.granule with
  | .G4K => d.extractLsb' 12 44 ++ 0#12
  | .G16K => d.extractLsb' 14 42 ++ 0#14
  | .G64K => d.extractLsb' 16 40 ++ 0#16

/-- `d[110:109]`. -/
abbrev sklOf (d : Desc128) : BitVec 2 := d.extractLsb' 109 2

/-- Some bit of `d[m-1:12]` is 1 (R194, R226). -/
def lowRes0V9 (c : Ctx) (d : Desc128) : Bool :=
  match c.granule with
  | .G4K => false
  | .G16K => some1 (d.extractLsb' 12 2)
  | .G64K => some1 (d.extractLsb' 12 4)

/-- Some bit is 1 of those that every valid VMSAv9-128 format has RES0: [126:125], [120:119],
[108:101], [90:56], [1], [m-1:12], and [6] when SKL is 0 (R195, R207, R227, R242). -/
def commonRes0V9 (c : Ctx) (d : Desc128) : Bool :=
  some1 (d.extractLsb' 125 2) || some1 (d.extractLsb' 119 2) || some1 (d.extractLsb' 101 8)
    || some1 (d.extractLsb' 56 35) || d.getLsbD 1
    || lowRes0V9 c d
    || (decide (sklOf d = 0#2) && d.getLsbD 6)

/-- The Security states and regimes in which a stage 1 descriptor has NS (R134, R227). -/
def nsHere (c : Ctx) : Bool :=
  match c.secstate, c.regime with
  | .Secure, _ => true
  | .Root, _ => true
  | .Realm, .EL2 => true
  | .Realm, .EL2_0 => true
  | _, _ => false

/-- The Realm EL1&0 translation regime. -/
def realmEL10 (c : Ctx) : Bool := decide (c.secstate = .Realm ∧ c.regime = .EL1_0)

/-- The Realm EL2 or EL2&0 translation regime. -/
def realmEL2x (c : Ctx) : Bool :=
  decide (c.secstate = .Realm ∧ (c.regime = .EL2 ∨ c.regime = .EL2_0))

/-- The rows of R151: granule, level, extra condition, `n`. -/
def blockRow (c : Ctx) (n : Nat) : Prop :=
  (c.granule = .G4K ∧ c.level = 0 ∧ c.DS = true ∧ n = 39)
    ∨ (c.granule = .G4K ∧ c.level = 1 ∧ n = 30)
    ∨ (c.granule = .G4K ∧ c.level = 2 ∧ n = 21)
    ∨ (c.granule = .G16K ∧ c.level = 1 ∧ c.DS = true ∧ n = 36)
    ∨ (c.granule = .G16K ∧ c.level = 2 ∧ n = 25)
    ∨ (c.granule = .G64K ∧ c.level = 1 ∧ c.FEAT_LPA = true ∧ n = 42)
    ∨ (c.granule = .G64K ∧ c.level = 2 ∧ n = 29)

/-- The places where R152 says that a Block has no format. -/
def noBlockRow (c : Ctx) : Prop :=
  c.level = -2 ∨ c.level = -1
    ∨ (c.granule = .G4K ∧ c.level = 0 ∧ c.DS = false)
    ∨ (c.granule = .G16K ∧ c.level = 0)
    ∨ (c.granule = .G16K ∧ c.level = 1 ∧ c.DS = false)
    ∨ (c.granule = .G64K ∧ c.level = 0)
    ∨ (c.granule = .G64K ∧ c.level = 1 ∧ c.FEAT_LPA = false)

/-- A VMSAv8-64 Block or Page descriptor that has a format in the context (R130, R155, R151). -/
def V8LeafAt (s : State) (st : Stage) (d : Desc64) : Prop :=
  V8At s st ∧ d.getLsbD 0 = true
    ∧ ((s.ctx.level = 3 ∧ d.getLsbD 1 = true)
      ∨ (s.ctx.level < 3 ∧ d.getLsbD 1 = false ∧ ∃ n, blockRow s.ctx n))

/-- The fields of a stage 1 VMSAv8-64 Block or Page result. -/
def leafS1 : Result → Option V8LeafS1
  | .v8BlockS1 f => some f
  | .v8PageS1 f => some f
  | _ => none

/-- The fields of a stage 2 VMSAv8-64 Block or Page result. -/
def leafS2 : Result → Option V8LeafS2
  | .v8BlockS2 f => some f
  | .v8PageS2 f => some f
  | _ => none

/-- The descriptor yields an outcome with these stage 1 leaf fields. -/
def YieldsLeafS1 (s : State) (d : Desc64) (dec : Decoded) (f : V8LeafS1) : Prop :=
  ∃ i, Yields s (.d64 d) i dec ∧ leafS1 dec.result = some f

/-- The descriptor yields an outcome with these stage 2 leaf fields. -/
def YieldsLeafS2 (s : State) (d : Desc64) (dec : Decoded) (f : V8LeafS2) : Prop :=
  ∃ i, Yields s (.d64 d) i dec ∧ leafS2 dec.result = some f

/-- OAB, `n` and nT of a VMSAv8-64 Block or Page result. -/
def leafAddrV8 : Result → Option (BitVec 52 × Nat × Option Bit)
  | .v8BlockS1 f => some (f.OAB, f.n, f.nT)
  | .v8PageS1 f => some (f.OAB, f.n, f.nT)
  | .v8BlockS2 f => some (f.OAB, f.n, f.nT)
  | .v8PageS2 f => some (f.OAB, f.n, f.nT)
  | _ => none

/-- OAB and `n` of a VMSAv9-128 Block or Page result. -/
def leafAddrV9 : Result → Option (BitVec 56 × Option Nat)
  | .v9BlockS1 f => some (f.OAB, f.n)
  | .v9PageS1 f => some (f.OAB, f.n)
  | .v9BlockS2 f => some (f.OAB, f.n)
  | .v9PageS2 f => some (f.OAB, f.n)
  | _ => none

/-- `a = base[top:n] : IA[n-1:0]`, bit by bit (R59). -/
def appended {w : Nat} (a base : BitVec w) (n : Nat) (ia : BitVec 64) : Prop :=
  ∀ k, k < w → a.getLsbD k = if k < n then ia.getLsbD k else base.getLsbD k

/-- What a Table result says of the next table: address (zero-extended to 56 bits), kind, level, SKL
(0 for a VMSAv8-64 descriptor, which has no such field). -/
def nextTable : Result → Option (BitVec 56 × AddrKind × Int × BitVec 2)
  | .v8TableS1 t => some (t.NLTA.setWidth 56, t.nlta_kind, t.next_level, 0#2)
  | .v8TableS2 t => some (t.NLTA.setWidth 56, t.nlta_kind, t.next_level, 0#2)
  | .v9TableS1 t => some (t.NLTA, t.nlta_kind, t.next_level, t.SKL)
  | .v9TableS2 t => some (t.NLTA, t.nlta_kind, t.next_level, t.SKL)
  | _ => none

/-- The field that a row names, with the field bits it holds. -/
def named : BitClass → Option (FieldName × Nat × Nat)
  | .field f hi lo => some (f, hi, lo)
  | .software f hi lo => some (f, hi, lo)
  | .systemMmu f hi lo => some (f, hi, lo)
  | _ => none

/-- The class of descriptor bit `k` in a field table. -/
def classAt (rows : List Row) (k : Nat) : Option BitClass :=
  match rows.find? fun r => decide (r.lo ≤ k) && decide (k ≤ r.hi) with
  | some r => some r.cls
  | none => none

/-- Two descriptors agree on every bit of the rows that a condition picks. -/
def agreeOn (p : BitClass → Bool) (rows : List Row) (d d' : Desc) : Prop :=
  ∀ r ∈ rows, p r.cls = true → ∀ k, r.lo ≤ k → k ≤ r.hi → d.bit k = d'.bit k

/-- Not IGNORED. -/
def notIgnored : BitClass → Bool
  | .ignored => false
  | _ => true

/-- Neither IGNORED nor RES0 nor RES1. -/
def isRead : BitClass → Bool
  | .ignored => false
  | .res0 => false
  | .res1 => false
  | _ => true

/-- Memory holds the bytes from the descriptor's address on, inside the address space. -/
def holds (s : State) (bs : List Byte) : Prop :=
  s.desc_addr.toNat + bs.length ≤ 2 ^ 56
    ∧ ∀ k (h : k < bs.length), s.mem.read (s.desc_addr.toNat + k) = some bs[k]

/-- The outcome of a decode of a descriptor value in a state. -/
def outcomeOf (s : State) (d : Desc) : Outcome :=
  match decodeDesc s.ctx d with
  | .ok i => exec i s
  | .error r => .refused (refusalOf r)

/-- The controls that no VMSAv9-128 format reads, set to other values (R25, R26, R28, R29, R30, R32, R34,
R37; R194). -/
def withV8Controls (c : Ctx) (DS LPA BTI BBML1 XNX XS NV hier PnCH ind1 ind2 assured : Bool)
    (pbha : PbhaEn) : Ctx :=
  { c with
    DS := DS, FEAT_LPA := LPA, FEAT_BTI := BTI, FEAT_BBML1 := BBML1, FEAT_XNX := XNX, FEAT_XS := XS,
    NV_NV1 := NV, hier_perm := hier, PnCH := PnCH, s1_indirect := ind1, s2_indirect := ind2,
    AssuredOnly := assured, pbha_en := pbha }

end Sys2Proof.Claims

open Sys2Proof Sys2Proof.Machine Sys2Proof.Claims

/-! ### Encoding and type determination -/

/-- Decoding the encoder's bytes of a well-formed instruction gives it back, in either byte order: no
bit of any of the 14 encodings is dropped. -/
def Obligations.DecodeOfEncodeIsIdentity : Prop :=
  ∀ (c : Ctx) (i : Instr), i.wf c = true → decode c (encode c.big_endian_walk i) = .ok i

/-- What decodes is well formed in the context and its bytes are the encoder's. -/
def Obligations.DecodedIsWellFormedAndEncodesBack : Prop :=
  ∀ (c : Ctx) (bs : List Byte) (i : Instr), decode c bs = .ok i →
    i.wf c = true ∧ encode c.big_endian_walk i = bs.take c.system.bytes

/-- R74, R75: the type of a 64-bit descriptor, with the format of each type. The refusal of a Block where
the source has no Block format is R152 with decision D16 (log entry 20), not R74. -/
def Obligations.V8TypeDetermination : Prop :=
  ∀ (c : Ctx) (d : Desc64), c.wf = true → c.system = .VMSAv8_64 →
    (d.getLsbD 0 = false →
      decodeDesc c (.d64 d) = .ok (match c.stage with
        | .S1 => .v8InvalidS1 (d.extractLsb' 53 11) (d.extractLsb' 52 1) (d.extractLsb' 1 51)
        | .S2 => .v8InvalidS2 (d.extractLsb' 1 63)))
    ∧ (d.getLsbD 0 = true → d.getLsbD 1 = false → c.level = 3 →
      decodeDesc c (.d64 d) = .ok (.v8Reserved (d.extractLsb' 2 62)))
    ∧ (d.getLsbD 0 = true → d.getLsbD 1 = true → c.level = 3 →
      decodeDesc c (.d64 d) = .ok (match c.stage with
        | .S1 => .v8PageS1 (.ofBits d) (d.extractLsb' 12 36)
        | .S2 => .v8PageS2 (.ofBits d) (d.extractLsb' 12 36)))
    ∧ (d.getLsbD 0 = true → d.getLsbD 1 = true → c.level < 3 →
      decodeDesc c (.d64 d) = .ok (match c.stage with
        | .S1 => .v8TableS1 (.ofBits d)
        | .S2 => .v8TableS2 (.ofBits d)))
    ∧ (d.getLsbD 0 = true → d.getLsbD 1 = false → c.level < 3 →
      (decodeDesc c (.d64 d) = .ok (match c.stage with
        | .S1 => .v8BlockS1 (.ofBits d) (d.extractLsb' 17 31) (d.extractLsb' 16 1) (d.extractLsb' 12 4)
        | .S2 =>
          .v8BlockS2 (.ofBits d) (d.extractLsb' 17 31) (d.extractLsb' 16 1) (d.extractLsb' 12 4)))
      ∨ (noBlockRow c ∧ decodeDesc c (.d64 d) = .error .noBlockFormat))

/-- R76: the type of a 128-bit descriptor by bit[0] and level + SKL. -/
def Obligations.V9TypeDetermination : Prop :=
  ∀ (c : Ctx) (d : Desc128), c.wf = true → c.system = .VMSAv9_128 →
    let sum : Int := c.level + (sklOf d).toNat
    let tableOk := c.table_permitted.permits c.granule c.level (sklOf d)
    let blockOk := c.block_permitted.permits c.granule c.level (sklOf d)
    decodeDesc c (.d128 d) = .ok
      (if d.getLsbD 0 = true ∧ sum < 3 ∧ tableOk = true then
        (match c.stage with
          | .S1 => .v9TableS1 (.ofBits d)
          | .S2 => .v9TableS2 (.ofBits d))
      else if d.getLsbD 0 = true ∧ sum = 3 ∧ blockOk = true then
        (match c.stage with
          | .S1 => .v9BlockPageS1 (.ofBits d)
          | .S2 => .v9BlockPageS2 (.ofBits d))
      else
        .v9Invalid (d.extractLsb' 115 13) (d.extractLsb' 114 1) (d.extractLsb' 1 113)
          (d.extractLsb' 0 1))

/-- R152 (decision D16, the spec's own choice): where R151 has no row, a Block descriptor decodes to no
format, it is not Invalid, and a Block instruction run there is refused by name. -/
def Obligations.V8BlockWithoutFormatIsRefused : Prop :=
  ∀ (s : State) (st : Stage) (d : Desc64), V8At s st → s.ctx.level < 3 → noBlockRow s.ctx →
    d.extractLsb' 0 2 = 0b01#2 →
    decodeDesc s.ctx (.d64 d) = .error .noBlockFormat
      ∧ outcomeOf s (.d64 d) = .refused .noBlockFormat
      ∧ (st = .S1 → ∀ a h nt lo, exec (.v8BlockS1 a h nt lo) s = .refused .noBlockFormat)
      ∧ (st = .S2 → ∀ a h nt lo, exec (.v8BlockS2 a h nt lo) s = .refused .noBlockFormat)

/-- R46, R78 and decisions D15, D22 (log entry 20): exactly the contexts that break a check are refused,
whatever the descriptor. -/
def Obligations.ContextsOutsideTheSpecAreRefused : Prop :=
  ∀ (c : Ctx) (bs : List Byte), c.system.bytes ≤ bs.length →
    ((∃ r, decode c bs = .error (.context r)) ↔
      (c.level < -2 ∨ 3 < c.level
        ∨ (c.s1_overlay = true ∧ c.FEAT_S1POE = false)
        ∨ (c.aie_en = true ∧ c.FEAT_AIE = false)
        ∨ ((c.pbha_en.b59 = true ∨ c.pbha_en.b60 = true ∨ c.pbha_en.b61 = true ∨ c.pbha_en.b62 = true)
            ∧ c.FEAT_HPDS2 = false)
        ∨ (c.NV_NV1 = true ∧ c.regime ≠ .EL1_0)
        ∨ (c.secstate = .Root ∧ c.regime ≠ .EL3)
        ∨ (c.stage = .S2 ∧ c.secstate = .Root)
        ∨ (c.FNG = true ∧ c.two_priv = false)))

/-- Descriptor values of spec/95_test_vectors.md (TA1 read at level 2, BA2, IA5, TC1 at level 2, ID2)
decode to their formats with the ranges written out. -/
def Obligations.SpecDescriptorsDecode : Prop :=
  decodeTableWord 64 0x6000000080001003
      = some (.v8TableS1 ⟨0, 3, 0, 0, 0, 0, 0, 0, 0, 0x80001, 0, 0, 0, 0⟩)
    ∧ decodeTableWord 64 0x0000000040200401
      = some (.v8BlockS1 ⟨0, 0, 0, 0, 0, 0, 0, 0, 0, 0, 0, 1, 0, 0, 0, 0, 0⟩ 0x2010 0 0)
    ∧ decodeTableWord 64 0x0010000000000002 = some (.v8InvalidS1 0 1 1)
    ∧ decodeTableWord 128 0x00000000000000000000000080001001
      = some (.v9TableS1 ⟨0, 0, 0, 0, 0, 0, 0, 0, 0, 0, 0, 0, 0, 0x80001, 0, 0, 0, 0, 0, 0⟩)
    ∧ decodeTableWord 128 0x00040000000000000000000000000000 = some (.v9Invalid 0 1 0 0)

/-! ### Reading the descriptor -/

/-- R50: a step reads 8 bytes (VMSAv8-64) or 16 bytes (VMSAv9-128) from the descriptor's address and
nothing else of memory. -/
def Obligations.StepReadsOnlyTheDescriptor : Prop :=
  ∀ (s : State) (m : Memory),
    (∀ b, s.desc_addr.toNat ≤ b →
      b < s.desc_addr.toNat + (match s.ctx.system with
        | .VMSAv8_64 => 8
        | .VMSAv9_128 => 16) →
      s.mem.read b = m.read b) →
    step { s with mem := m } = (match step s with
      | .next t => .next { t with mem := m }
      | .fault r => .fault r
      | .refused r => .refused r)

/-- R52 (decision D4, a parameter of the spec): the byte at `addr + k` is `d[8k+7:8k]`, or with
`big_endian_walk` the byte order is reversed, for both descriptor lengths. -/
def Obligations.ByteOrderOfTheDescriptor : Prop :=
  ∀ (s : State),
    (∀ d : Desc64, s.ctx.system = .VMSAv8_64 → s.desc_addr.toNat + 8 ≤ 2 ^ 56 →
      (∀ k, k < 8 → s.mem.read (s.desc_addr.toNat + k)
        = some (d.extractLsb' (8 * (if s.ctx.big_endian_walk then 7 - k else k)) 8)) →
      step s = outcomeOf s (.d64 d))
    ∧ (∀ d : Desc128, s.ctx.system = .VMSAv9_128 → s.desc_addr.toNat + 16 ≤ 2 ^ 56 →
      (∀ k, k < 16 → s.mem.read (s.desc_addr.toNat + k)
        = some (d.extractLsb' (8 * (if s.ctx.big_endian_walk then 15 - k else k)) 8)) →
      step s = outcomeOf s (.d128 d))

/-- A step runs the decoded instruction: with the bytes of a well-formed instruction at the descriptor's
address, step is exec of it. Nothing is added around exec (R41: no program counter). -/
def Obligations.StepRunsTheDecodedInstruction : Prop :=
  ∀ (s : State) (i : Instr), i.wf s.ctx = true → holds s (encode s.ctx.big_endian_walk i) →
    step s = exec i s

/-- A descriptor value placed from outside is what the next step decodes (log entry 2): the width selects
the translation system (R79). -/
def Obligations.PlacedDescriptorIsDecodedNext : Prop :=
  ∀ (s : State) (nbits w : Nat),
    step (s.withFetchWord nbits w)
      = outcomeOf (s.withFetchWord nbits w)
          (if nbits ≤ 64 then .d64 (BitVec.ofNat 64 w) else .d128 (BitVec.ofNat 128 w))
      ∧ (s.withFetchWord nbits w).ctx
        = { s.ctx with system := if nbits ≤ 64 then .VMSAv8_64 else .VMSAv9_128 }
      ∧ (s.withFetchWord nbits w).ia = s.ia

/-- Log entry 3, the model's choice: memory has no contents at reset (R45, R290), so the first byte of
the descriptor that was never written, or that lies beyond the 56-bit address space, stops the step
with a fault that names its address. -/
def Obligations.UnreadableDescriptorFaults : Prop :=
  ∀ (s : State) (k : Nat), k < s.ctx.system.bytes →
    (∀ j, j < k → (s.mem.read (s.desc_addr.toNat + j)).isSome = true
      ∧ s.desc_addr.toNat + j < 2 ^ 56) →
    (2 ^ 56 ≤ s.desc_addr.toNat + k →
      step s = .fault (.addressBeyondSpace (s.desc_addr.toNat + k)))
    ∧ (s.desc_addr.toNat + k < 2 ^ 56 → s.mem.read (s.desc_addr.toNat + k) = none →
      step s = .fault (.memoryNotWritten (s.desc_addr.toNat + k)))

/-! ### VMSAv8-64 Table descriptors -/

/-- R106, R102 to R105: the complete decode of V8.TABLE.S1. Its bit [59] as PXNTable is the spec's
general knowledge G5 (log entry 10); no field of [62:59] without hierarchical permissions is decision
D14; the zero top of a 48-bit address is the spec's presentation (R104). The {NV, NV1} = {1, 1} form resolves
conflict C8 (log entry 21); no output address is R270 with decision D9 (log entry 22). -/
def Obligations.V8TableStage1Decode : Prop :=
  ∀ (s : State) (d : Desc64), V8At s .S1 → s.ctx.level < 3 → d.extractLsb' 0 2 = 0b11#2 →
    ∃ dec, Yields s (.d64 d) (.v8TableS1 (.ofBits d)) dec
      ∧ dec.result = .v8TableS1
        { NLTA := addrV8 s.ctx d
          nlta_kind := if s.ctx.regime = .EL1_0 ∧ s.ctx.el2_enabled = true then .IPA else .PA
          next_level := s.ctx.level + 1
          NSTable := iff' (decide (s.ctx.secstate = .Secure)) (db d 63)
          APTable := iff' s.ctx.hier_perm
            (if nv11At s.ctx then db d 62 ++ 0#1 else d.extractLsb' 61 2)
          XNTable := iff' (s.ctx.hier_perm && !nv11At s.ctx && !s.ctx.two_priv) (db d 60)
          UXNTable := iff' (s.ctx.hier_perm && !nv11At s.ctx && s.ctx.two_priv) (db d 60)
          PXNTable := iff' (s.ctx.hier_perm && (nv11At s.ctx || s.ctx.two_priv))
            (if nv11At s.ctx then db d 60 else db d 59)
          Protected := iff' s.ctx.PnCH (db d 52)
          AF := iff' s.ctx.hw_table_af (db d 10) }
      ∧ dec.res0_violation
        = ((!decide (s.ctx.secstate = .Secure) && d.getLsbD 63)
          || (s.ctx.hier_perm && (nv11At s.ctx || !s.ctx.two_priv) && d.getLsbD 59)
          || d.getLsbD 50 || addrRes0V8 s.ctx d)
      ∧ dec.res1_violation = false ∧ dec.oa = .none

/-- R117: the complete decode of V8.TABLE.S2; its next-level table address is a PA. No output address is R270
with decision D9 (log entry 22). -/
def Obligations.V8TableStage2Decode : Prop :=
  ∀ (s : State) (d : Desc64), V8At s .S2 → s.ctx.level < 3 → d.extractLsb' 0 2 = 0b11#2 →
    ∃ dec, Yields s (.d64 d) (.v8TableS2 (.ofBits d)) dec
      ∧ dec.result = .v8TableS2
        { NLTA := addrV8 s.ctx d
          nlta_kind := .PA
          next_level := s.ctx.level + 1
          AF := iff' s.ctx.hw_table_af (db d 10) }
      ∧ dec.res0_violation
        = (d.getLsbD 63 || (!s.ctx.s2_indirect && some1 (d.extractLsb' 59 4))
          || d.getLsbD 50 || addrRes0V8 s.ctx d)
      ∧ dec.res1_violation = false ∧ dec.oa = .none

/-! ### VMSAv8-64 Block and Page descriptors -/

/-- R134: NS, the software bit [63] and AMEC at stage 1. No field of bit [63] in Root state is decision
D15. -/
def Obligations.V8LeafStage1SecurityFields : Prop :=
  ∀ (s : State) (d : Desc64), V8LeafAt s .S1 d → ∃ dec f, YieldsLeafS1 s d dec f
    ∧ f.NS = iff' (nsHere s.ctx) (db d 5)
    ∧ f.sw63 = iff' (decide (s.ctx.secstate = .NonSecure) || realmEL10 s.ctx) (db d 63)
    ∧ f.AMEC = iff' (realmEL2x s.ctx && !d.getLsbD 5) (db d 63)

/-- R135: POIndex, PBHA and AttrIndx[3] at stage 1, per bit. That POIndex and AttrIndx[3] win over PBHA
is decision D13 (log entry 11). -/
def Obligations.V8LeafStage1IndexFields : Prop :=
  ∀ (s : State) (d : Desc64), V8LeafAt s .S1 d → ∃ dec f, YieldsLeafS1 s d dec f
    ∧ f.POIndex = iff' s.ctx.s1_overlay (d.extractLsb' 60 3)
    ∧ f.PBHA3 = iff' (!s.ctx.s1_overlay && s.ctx.FEAT_HPDS2 && s.ctx.pbha_en.b62) (db d 62)
    ∧ f.PBHA2 = iff' (!s.ctx.s1_overlay && s.ctx.FEAT_HPDS2 && s.ctx.pbha_en.b61) (db d 61)
    ∧ f.PBHA1 = iff' (!s.ctx.s1_overlay && s.ctx.FEAT_HPDS2 && s.ctx.pbha_en.b60) (db d 60)
    ∧ f.AttrIndx3 = iff' s.ctx.aie_en (db d 59)
    ∧ f.PBHA0 = iff' (!s.ctx.aie_en && s.ctx.FEAT_HPDS2 && s.ctx.pbha_en.b59) (db d 59)

/-- R136: the permission fields at stage 1, direct and indirect, with the {NV, NV1} = {1, 1} form, and
when bit [53] is RES0 and bit [6] is RES1. That under {1, 1} bit [54] is PXN and UXN is 0 resolves conflict
C8 (R136 note (a); DEDUCED, log entry 21). That bit [6] is RES1 with a single privilege level (R71) under
{1, 1} too, where R136 gives AP[1] for a regime with two, is DEDUCED (log entry 23). -/
def Obligations.V8LeafStage1PermissionFields : Prop :=
  ∀ (s : State) (d : Desc64), V8LeafAt s .S1 d → ∃ dec f, YieldsLeafS1 s d dec f
    ∧ (f.PIIndex, f.nDirty, f.DBM, f.AP2, f.AP1, f.XN, f.UXN, f.PXN)
      = (if s.ctx.s1_indirect then
          (some (db d 54 ++ db d 53 ++ db d 51 ++ db d 6), some (db d 7), none, none, none, none, none,
            none)
        else if nv11At s.ctx then
          (none, none, some (db d 51), some (db d 7), iff' s.ctx.two_priv (db d 6), none, some 0#1,
            some (db d 54))
        else if s.ctx.two_priv then
          (none, none, some (db d 51), some (db d 7), some (db d 6), none, some (db d 54),
            some (db d 53))
        else (none, none, some (db d 51), some (db d 7), none, some (db d 54), none, none))
    ∧ (classAt dec.rows 53 = some .res0
        ↔ s.ctx.s1_indirect = false ∧ (nv11At s.ctx = true ∨ s.ctx.two_priv = false))
    ∧ (classAt dec.rows 6 = some .res1
        ↔ s.ctx.s1_indirect = false ∧ s.ctx.two_priv = false)

/-- R137: Contiguous and Protected, GP, bit [11], AF, SH, AttrIndx[2:0] and the software bits at stage 1.
That FNG is read only where nG would otherwise apply is conflict C9 (log entry 21) with decision D15. -/
def Obligations.V8LeafStage1AttributeFields : Prop :=
  ∀ (s : State) (d : Desc64), V8LeafAt s .S1 d → ∃ dec f, YieldsLeafS1 s d dec f
    ∧ f.Contiguous = iff' (!s.ctx.PnCH) (db d 52) ∧ f.Protected = iff' s.ctx.PnCH (db d 52)
    ∧ f.GP = iff' s.ctx.FEAT_BTI (db d 50)
    ∧ f.NSE = iff' (decide (s.ctx.secstate = .Root)) (db d 11)
    ∧ f.nG = iff' (!decide (s.ctx.secstate = .Root) && s.ctx.two_priv && !s.ctx.FNG) (db d 11)
    ∧ f.AF = db d 10 ∧ f.SH = iff' (!wideDS s.ctx) (d.extractLsb' 8 2)
    ∧ f.AttrIndx2_0 = d.extractLsb' 2 3 ∧ f.sw = d.extractLsb' 55 4

/-- R153, R70, R71 (reports: decision D11, log entry 14): the RES0 and RES1 reports of a stage 1 Block or
Page. That bit [63] is never reported in Root state is decision D15 (log entry 15) and in Realm state with
the EL3 regime the model's choice (log entry 12); that bit [6] is RES1 with a single privilege level under
{NV, NV1} = {1, 1} too is DEDUCED (log entry 23). FNG does not enter the report of bit [11]: it is read only
where nG would apply (conflict C9, decision D15; log entries 20, 21). -/
def Obligations.V8LeafStage1Reports : Prop :=
  ∀ (s : State) (d : Desc64), V8LeafAt s .S1 d → ∃ dec f, YieldsLeafS1 s d dec f
    ∧ dec.res0_violation
      = ((realmEL2x s.ctx && d.getLsbD 5 && d.getLsbD 63)
        || (!s.ctx.s1_indirect && (nv11At s.ctx || !s.ctx.two_priv) && d.getLsbD 53)
        || (!s.ctx.FEAT_BTI && d.getLsbD 50)
        || (if s.ctx.level = 3 then addrRes0V8 s.ctx d
          else (!wideDS s.ctx && some1 (d.extractLsb' 48 2)) || some1 (d.extractLsb' 17 (f.n - 17))
            || (!s.ctx.FEAT_BBML1 && d.getLsbD 16) || (!wideLPA s.ctx && some1 (d.extractLsb' 12 4)))
        || (!s.ctx.two_priv && !decide (s.ctx.secstate = .Root) && d.getLsbD 11)
        || (!nsHere s.ctx && d.getLsbD 5))
    ∧ dec.res1_violation
      = (!s.ctx.s1_indirect && !s.ctx.two_priv && !d.getLsbD 6)

/-- R158: AMEC and NS at stage 2. Stage 2 in Root state is refused (decision D15). -/
def Obligations.V8LeafStage2SecurityFields : Prop :=
  ∀ (s : State) (d : Desc64), V8LeafAt s .S2 d → ∃ dec f, YieldsLeafS2 s d dec f
    ∧ f.NS = iff' (decide (s.ctx.secstate = .Realm)) (db d 55)
    ∧ f.AMEC = iff' (decide (s.ctx.secstate = .Realm) && !d.getLsbD 55) (db d 63)
    ∧ s.ctx.secstate ≠ .Root

/-- R159: POIndex, PBHA and the System MMU bits at stage 2, per bit. The IGNORED row of bit [59] is read
as corrected in conflict C1. -/
def Obligations.V8LeafStage2IndexFields : Prop :=
  ∀ (s : State) (d : Desc64), V8LeafAt s .S2 d → ∃ dec f, YieldsLeafS2 s d dec f
    ∧ f.POIndex = iff' s.ctx.s2_overlay (d.extractLsb' 59 4)
    ∧ f.PBHA3 = iff' (!s.ctx.s2_overlay && s.ctx.FEAT_HPDS2 && s.ctx.pbha_en.b62) (db d 62)
    ∧ f.PBHA2 = iff' (!s.ctx.s2_overlay && s.ctx.FEAT_HPDS2 && s.ctx.pbha_en.b61) (db d 61)
    ∧ f.PBHA1 = iff' (!s.ctx.s2_overlay && s.ctx.FEAT_HPDS2 && s.ctx.pbha_en.b60) (db d 60)
    ∧ f.PBHA0 = iff' (!s.ctx.s2_overlay && s.ctx.FEAT_HPDS2 && s.ctx.pbha_en.b59) (db d 59)
    ∧ f.smmu2 = iff' (!s.ctx.s2_overlay && !(s.ctx.FEAT_HPDS2 && s.ctx.pbha_en.b62)) (db d 62)
    ∧ f.smmu1 = iff' (!s.ctx.s2_overlay && !(s.ctx.FEAT_HPDS2 && s.ctx.pbha_en.b61)) (db d 61)
    ∧ f.smmu0 = iff' (!s.ctx.s2_overlay && !(s.ctx.FEAT_HPDS2 && s.ctx.pbha_en.b60)) (db d 60)

/-- R160: AssuredOnly and its software bit, the software bits, the permission fields and Contiguous at
stage 2, when bit [53] is RES0, and that bit [50] always is. -/
def Obligations.V8LeafStage2PermissionFields : Prop :=
  ∀ (s : State) (d : Desc64), V8LeafAt s .S2 d → ∃ dec f, YieldsLeafS2 s d dec f
    ∧ f.AssuredOnly = iff' s.ctx.AssuredOnly (db d 58) ∧ f.sw58 = iff' (!s.ctx.AssuredOnly) (db d 58)
    ∧ f.sw = d.extractLsb' 56 2
    ∧ (f.PIIndex, f.Dirty, f.DBM, f.S2AP, f.XN1_0, f.XN)
      = (if s.ctx.s2_indirect then
          (some (db d 54 ++ db d 53 ++ db d 51 ++ db d 6), some (db d 7), none, none, none, none)
        else if s.ctx.FEAT_XNX then
          (none, none, some (db d 51), some (db d 7 ++ db d 6), some (db d 54 ++ db d 53), none)
        else (none, none, some (db d 51), some (db d 7 ++ db d 6), none, some (db d 54)))
    ∧ (classAt dec.rows 53 = some .res0 ↔ s.ctx.s2_indirect = false ∧ s.ctx.FEAT_XNX = false)
    ∧ f.Contiguous = db d 52 ∧ classAt dec.rows 50 = some .res0

/-- R161: FnXS, AF, SH and MemAttr at stage 2, when bits [11] and [5] are RES0, and when bits [9:8] are
OAB[51:50]. -/
def Obligations.V8LeafStage2AttributeFields : Prop :=
  ∀ (s : State) (d : Desc64), V8LeafAt s .S2 d → ∃ dec f, YieldsLeafS2 s d dec f
    ∧ f.FnXS = iff' s.ctx.FEAT_XS (db d 11)
    ∧ (classAt dec.rows 11 = some .res0 ↔ s.ctx.FEAT_XS = false)
    ∧ f.AF = db d 10 ∧ f.SH = iff' (!wideDS s.ctx) (d.extractLsb' 8 2)
    ∧ (∀ k, 8 ≤ k → k ≤ 9 → (classAt dec.rows k = some (.field .OAB 51 50) ↔ wideDS s.ctx = true))
    ∧ f.MemAttr3 = iff' (!s.ctx.FWB) (db d 5) ∧ f.MemAttr2_0 = d.extractLsb' 2 3
    ∧ (classAt dec.rows 5 = some .res0 ↔ s.ctx.FWB = true)

/-- R162, R70 (reports: decision D11, log entry 14): the RES0 report of a stage 2 Block or Page; there is no
RES1 bit at stage 2. Bit [59] is read as corrected in conflict C1 (log entry 21). -/
def Obligations.V8LeafStage2Reports : Prop :=
  ∀ (s : State) (d : Desc64), V8LeafAt s .S2 d → ∃ dec f, YieldsLeafS2 s d dec f
    ∧ dec.res0_violation
      = ((!(decide (s.ctx.secstate = .Realm) && !d.getLsbD 55) && d.getLsbD 63)
        || (!s.ctx.s2_indirect && !s.ctx.FEAT_XNX && d.getLsbD 53)
        || d.getLsbD 50
        || (if s.ctx.level = 3 then addrRes0V8 s.ctx d
          else (!wideDS s.ctx && some1 (d.extractLsb' 48 2)) || some1 (d.extractLsb' 17 (f.n - 17))
            || (!s.ctx.FEAT_BBML1 && d.getLsbD 16) || (!wideLPA s.ctx && some1 (d.extractLsb' 12 4)))
        || (!s.ctx.FEAT_XS && d.getLsbD 11)
        || (s.ctx.FWB && d.getLsbD 5))
    ∧ dec.res1_violation = false

/-- R150, at either stage: OAB and `n` of a Page descriptor, OA = OAB[51:n] : IA[n-1:0], and the RES0 bits
of the address region. A Page has no nT. The formula of OA is the spec's derivation in R59 and the zero
top of a 48-bit address its presentation in R104 (DEDUCED, log entry 22). -/
def Obligations.V8PageOutputAddress : Prop :=
  ∀ (s : State) (st : Stage) (d : Desc64), V8At s st → s.ctx.level = 3 →
    d.extractLsb' 0 2 = 0b11#2 →
    ∃ i dec, Yields s (.d64 d) i dec
      ∧ leafAddrV8 dec.result = some (addrV8 s.ctx d, match s.ctx.granule with
        | .G4K => 12
        | .G16K => 14
        | .G64K => 16, none)
      ∧ dec.oa = .oa52 (match s.ctx.granule with
        | .G4K => (addrV8 s.ctx d).extractLsb' 12 40 ++ s.ia.extractLsb' 0 12
        | .G16K => (addrV8 s.ctx d).extractLsb' 14 38 ++ s.ia.extractLsb' 0 14
        | .G64K => (addrV8 s.ctx d).extractLsb' 16 36 ++ s.ia.extractLsb' 0 16)
      ∧ (∀ k, 48 ≤ k → k ≤ 49 → (classAt dec.rows k = some .res0 ↔ wideDS s.ctx = false))
      ∧ (∀ k, 12 ≤ k → k ≤ 47 → (classAt dec.rows k = some .res0 ↔
        (s.ctx.granule = .G16K ∧ k ≤ 13)
          ∨ (s.ctx.granule = .G64K ∧ s.ctx.FEAT_LPA = false ∧ k ≤ 15)))

/-- R151, at either stage, for each of its seven rows: `n`, OAB = hi4 : d[47:n] : zeros(n), OA = OAB[51:n] :
IA[n-1:0], nT, and the RES0 bits [n-1:17], [16] and [15:12]. The formula of OA is the spec's derivation in
R59 and the zero top of a 48-bit address its presentation in R104 (DEDUCED, log entry 22). -/
def Obligations.V8BlockOutputAddress : Prop :=
  ∀ (s : State) (st : Stage) (d : Desc64) (n : Nat), V8At s st → blockRow s.ctx n →
    d.extractLsb' 0 2 = 0b01#2 →
    ∃ i dec oab oa, Yields s (.d64 d) i dec
      ∧ leafAddrV8 dec.result = some (oab, n, iff' s.ctx.FEAT_BBML1 (db d 16))
      ∧ (∀ k, k < n → oab.getLsbD k = false)
      ∧ (∀ k, n ≤ k → k < 48 → oab.getLsbD k = d.getLsbD k)
      ∧ oab.extractLsb' 48 4
        = (if wideDS s.ctx then d.extractLsb' 8 2 ++ d.extractLsb' 48 2
          else if wideLPA s.ctx then d.extractLsb' 12 4 else 0#4)
      ∧ dec.oa = .oa52 oa ∧ appended oa oab n s.ia
      ∧ (∀ k, 17 ≤ k → k < n → classAt dec.rows k = some .res0)
      ∧ (classAt dec.rows 16 = some .res0 ↔ s.ctx.FEAT_BBML1 = false)
      ∧ (∀ k, 12 ≤ k → k ≤ 15 → (classAt dec.rows k = some .res0 ↔ wideLPA s.ctx = false))

/-! ### VMSAv8-64 Invalid descriptors -/

/-- R181: the decode of V8.INVALID.S1 at any level: Protected when PnCH is 1, and no violation. That there is
no output address is R270 with decision D9 (DEDUCED, log entry 22). -/
def Obligations.V8InvalidStage1Decode : Prop :=
  ∀ (s : State) (d : Desc64), V8At s .S1 → d.getLsbD 0 = false →
    ∃ i dec, Yields s (.d64 d) i dec
      ∧ dec.result = .v8Invalid (iff' s.ctx.PnCH (db d 52)) false
      ∧ dec.res0_violation = false ∧ dec.res1_violation = false ∧ dec.oa = .none

/-- R183: the decode of V8.INVALID.S2 at any level: no field and no violation. That there is no output
address is R270 with decision D9 (DEDUCED, log entry 22). -/
def Obligations.V8InvalidStage2Decode : Prop :=
  ∀ (s : State) (d : Desc64), V8At s .S2 → d.getLsbD 0 = false →
    ∃ i dec, Yields s (.d64 d) i dec
      ∧ dec.result = .v8Invalid none false
      ∧ dec.res0_violation = false ∧ dec.res1_violation = false ∧ dec.oa = .none

/-- R184, either stage: the reserved encoding at level 3 yields `Invalid` marked reserved. No field is
extracted, Protected included: decision D17 (log entry 15). No output address is R270 with decision D9 (log
entry 22). -/
def Obligations.V8ReservedDecode : Prop :=
  ∀ (s : State) (st : Stage) (d : Desc64), V8At s st → s.ctx.level = 3 →
    d.extractLsb' 0 2 = 0b01#2 →
    ∃ dec, Yields s (.d64 d) (.v8Reserved (d.extractLsb' 2 62)) dec
      ∧ dec.result = .v8Invalid none true ∧ dec.result.type = .Invalid
      ∧ dec.res0_violation = false ∧ dec.res1_violation = false ∧ dec.oa = .none

/-! ### VMSAv9-128 -/

/-- R195: the complete decode of V9.TABLE.S1. `next_level` for SKL not 0 is the spec's general knowledge
G4 (log entry 9), the stored SKL is decision D18 (log entry 8); no output address is R270 with decision D9
(log entry 22). -/
def Obligations.V9TableStage1Decode : Prop :=
  ∀ (s : State) (d : Desc128), V9At s .S1 → d.getLsbD 0 = true →
    s.ctx.level + (sklOf d).toNat < 3 →
    s.ctx.table_permitted.permits s.ctx.granule s.ctx.level (sklOf d) = true →
    ∃ dec, Yields s (.d128 d) (.v9TableS1 (.ofBits d)) dec
      ∧ dec.result = .v9TableS1
        { NLTA := addrV9 s.ctx d
          nlta_kind := if s.ctx.regime = .EL1_0 ∧ s.ctx.el2_enabled = true then .IPA else .PA
          SKL := sklOf d
          next_level := if sklOf d = 0#2 then s.ctx.level + 1 else s.ctx.level + (sklOf d).toNat + 1
          NSTable := iff' (decide (s.ctx.secstate = .Secure)) (db d 127)
          Protected := iff' s.ctx.FEAT_THE (db d 114)
          DisCH := db d 112
          AF := iff' s.ctx.hw_table_af (db d 10)
          nT := iff' (!decide (sklOf d = 0#2)) (db d 6)
          sw_usage := d.extractLsb' 91 10 }
      ∧ dec.res0_violation
        = (commonRes0V9 s.ctx d || (!decide (s.ctx.secstate = .Secure) && d.getLsbD 127)
          || (!s.ctx.s1_overlay && some1 (d.extractLsb' 121 4))
          || (!s.ctx.FEAT_THE && d.getLsbD 114)
          || (!(s.ctx.two_priv || decide (s.ctx.secstate = .Root)) && d.getLsbD 11))
      ∧ dec.res1_violation = false ∧ dec.oa = .none

/-- R207: the complete decode of V9.TABLE.S2, with the same choices of the spec (G4, D18, D9; log entries 9,
8, 22). -/
def Obligations.V9TableStage2Decode : Prop :=
  ∀ (s : State) (d : Desc128), V9At s .S2 → d.getLsbD 0 = true →
    s.ctx.level + (sklOf d).toNat < 3 →
    s.ctx.table_permitted.permits s.ctx.granule s.ctx.level (sklOf d) = true →
    ∃ dec, Yields s (.d128 d) (.v9TableS2 (.ofBits d)) dec
      ∧ dec.result = .v9TableS2
        { NLTA := addrV9 s.ctx d
          nlta_kind := .PA
          SKL := sklOf d
          next_level := if sklOf d = 0#2 then s.ctx.level + 1 else s.ctx.level + (sklOf d).toNat + 1
          AF := iff' s.ctx.hw_table_af (db d 10)
          nT := iff' (!decide (sklOf d = 0#2)) (db d 6)
          sw_usage := d.extractLsb' 91 10 }
      ∧ dec.res0_violation
        = (commonRes0V9 s.ctx d || (!realmEL10 s.ctx && d.getLsbD 127)
          || (!s.ctx.s2_overlay && some1 (d.extractLsb' 121 4))
          || (!s.ctx.FEAT_THE && d.getLsbD 114) || some1 (d.extractLsb' 112 2))
      ∧ dec.res1_violation = false ∧ dec.oa = .none

/-- R227: the complete decode of V9.BLOCKPAGE.S1, a Page at level 3 and a Block below (R77). FNG overrides nG
only where nG would apply: conflict C9 (log entry 21). -/
def Obligations.V9LeafStage1Decode : Prop :=
  ∀ (s : State) (d : Desc128), V9At s .S1 → d.getLsbD 0 = true →
    s.ctx.level + (sklOf d).toNat = 3 →
    s.ctx.block_permitted.permits s.ctx.granule s.ctx.level (sklOf d) = true →
    ∃ dec f, Yields s (.d128 d) (.v9BlockPageS1 (.ofBits d)) dec
      ∧ dec.result = (if s.ctx.level = 3 then .v9PageS1 f else .v9BlockS1 f)
      ∧ f =
        { OAB := addrV9 s.ctx d
          n := f.n
          SKL := sklOf d
          NS := iff' (nsHere s.ctx) (db d 127)
          POIndex := iff' s.ctx.s1_overlay (d.extractLsb' 121 4)
          PIIndex := d.extractLsb' 115 4
          Protected := iff' s.ctx.FEAT_THE (db d 114)
          GP := db d 113
          Contiguous := db d 111
          sw_usage := d.extractLsb' 91 10
          NSE := iff' (decide (s.ctx.secstate = .Root)) (db d 11)
          nG := iff' (!decide (s.ctx.secstate = .Root) && s.ctx.two_priv && !s.ctx.FNG) (db d 11)
          AF := db d 10
          SH := d.extractLsb' 8 2
          nDirty := db d 7
          nT := iff' (!decide (sklOf d = 0#2)) (db d 6)
          AttrIndx3 := iff' s.ctx.aie_en (db d 5)
          AttrIndx2_0 := d.extractLsb' 2 3 }
      ∧ dec.res0_violation
        = (commonRes0V9 s.ctx d || (!nsHere s.ctx && d.getLsbD 127)
          || (!s.ctx.s1_overlay && some1 (d.extractLsb' 121 4))
          || (!s.ctx.FEAT_THE && d.getLsbD 114)
          || (!decide (s.ctx.secstate = .Root) && !s.ctx.two_priv && d.getLsbD 11))
      ∧ dec.res1_violation = false

/-- R242: the complete decode of V9.BLOCKPAGE.S2, a Page at level 3 and a Block below. -/
def Obligations.V9LeafStage2Decode : Prop :=
  ∀ (s : State) (d : Desc128), V9At s .S2 → d.getLsbD 0 = true →
    s.ctx.level + (sklOf d).toNat = 3 →
    s.ctx.block_permitted.permits s.ctx.granule s.ctx.level (sklOf d) = true →
    ∃ dec f, Yields s (.d128 d) (.v9BlockPageS2 (.ofBits d)) dec
      ∧ dec.result = (if s.ctx.level = 3 then .v9PageS2 f else .v9BlockS2 f)
      ∧ f =
        { OAB := addrV9 s.ctx d
          n := f.n
          SKL := sklOf d
          NS := iff' (realmEL10 s.ctx) (db d 127)
          POIndex := iff' s.ctx.s2_overlay (d.extractLsb' 121 4)
          PIIndex := d.extractLsb' 115 4
          AssuredOnly := iff' s.ctx.FEAT_THE (db d 114)
          Contiguous := db d 111
          sw_usage := d.extractLsb' 91 10
          FnXS := db d 11
          AF := db d 10
          SH := d.extractLsb' 8 2
          Dirty := db d 7
          nT := iff' (!decide (sklOf d = 0#2)) (db d 6)
          MemAttr3 := iff' (!s.ctx.FWB) (db d 5)
          MemAttr2_0 := d.extractLsb' 2 3 }
      ∧ dec.res0_violation
        = (commonRes0V9 s.ctx d || (!realmEL10 s.ctx && d.getLsbD 127)
          || (!s.ctx.s2_overlay && some1 (d.extractLsb' 121 4))
          || (!s.ctx.FEAT_THE && d.getLsbD 114) || some1 (d.extractLsb' 112 2)
          || (s.ctx.FWB && d.getLsbD 5))
      ∧ dec.res1_violation = false

/-- R226 with R59 and decision D19: the output address of a VMSAv9-128 Page and, where the block size
parameter is given, of a Block; without the parameter no OA is formed. -/
def Obligations.V9OutputAddress : Prop :=
  ∀ (s : State) (st : Stage) (d : Desc128), V9At s st → d.getLsbD 0 = true →
    s.ctx.level + (sklOf d).toNat = 3 →
    s.ctx.block_permitted.permits s.ctx.granule s.ctx.level (sklOf d) = true →
    ∃ i dec n, Yields s (.d128 d) i dec
      ∧ leafAddrV9 dec.result = some (addrV9 s.ctx d, n)
      ∧ n = (if s.ctx.level = 3 then some (match s.ctx.granule with
          | .G4K => 12
          | .G16K => 14
          | .G64K => 16)
        else s.ctx.v9_block_shift.shift s.ctx.granule s.ctx.level)
      ∧ (match n with
        | some k => ∃ oa, dec.oa = .oa56 oa ∧ appended oa (addrV9 s.ctx d) k s.ia
        | none => dec.oa = .blockSizeNotGiven)

/-- R261 with decision D17: the decode of V9.INVALID at either stage: its cause, and Protected only with
bit [0] = 0 at stage 1 with FEAT_THE. No output address is R270 with decision D9 (log entry 22). -/
def Obligations.V9InvalidDecode : Prop :=
  ∀ (s : State) (st : Stage) (d : Desc128), V9At s st →
    let sum : Int := s.ctx.level + (sklOf d).toNat
    let tableOk := s.ctx.table_permitted.permits s.ctx.granule s.ctx.level (sklOf d)
    let blockOk := s.ctx.block_permitted.permits s.ctx.granule s.ctx.level (sklOf d)
    (d.getLsbD 0 = false ∨ (sum < 3 ∧ tableOk = false) ∨ (sum = 3 ∧ blockOk = false) ∨ 3 < sum) →
    ∃ i dec, Yields s (.d128 d) i dec
      ∧ dec.result = .v9Invalid
          (iff' (!d.getLsbD 0 && decide (st = .S1) && s.ctx.FEAT_THE) (db d 114))
          (if d.getLsbD 0 = false then .BitZero
            else if sum < 3 then .TableSizeNotPermitted
            else if sum = 3 then .BlockSizeNotPermitted
            else .SumAbove3)
      ∧ dec.res0_violation = false ∧ dec.res1_violation = false ∧ dec.oa = .none

/-! ### The whole machine -/

/-- Every instruction completes exactly where its format applies: exec answers a next state that differs
in the outcome latch only. Elsewhere it refuses: a context outside the spec (R46, decisions D15, D22), a
Block without a row (R152, decision D16), log entry 20, or a format whose `require` does not hold. -/
def Obligations.ExecCompletesExactlyWhereTheFormatApplies : Prop :=
  ∀ (i : Instr) (s : State),
    (i.wf s.ctx = true → ∃ dec, exec i s = .next { s with output := some dec })
    ∧ (i.wf s.ctx = false → ∃ r, exec i s = .refused r)

/-- R20, R44, R61: a step writes no context field, no byte of memory, no input. -/
def Obligations.StepWritesOnlyTheOutcome : Prop :=
  ∀ (s t : State), step s = .next t →
    t.ctx = s.ctx ∧ t.desc_addr = s.desc_addr ∧ t.ia = s.ia ∧ t.mem = s.mem
      ∧ (∀ a, t.mem.read a = s.mem.read a) ∧ ∃ dec, t.output = some dec

/-- What can stop a step: an unreadable descriptor, a context outside the spec, or a Block without a
format; nothing else, and no instruction is left without a meaning. -/
def Obligations.WhatStopsAStep : Prop :=
  ∀ (s : State), (∃ t, step s = .next t)
    ∨ (∃ a, step s = .fault (.memoryNotWritten a) ∧ s.mem.read a = none)
    ∨ (∃ a, step s = .fault (.addressBeyondSpace a) ∧ 2 ^ 56 ≤ a)
    ∨ (∃ r, step s = .refused (.context r) ∧ s.ctx.wf = false)
    ∨ (step s = .refused .noBlockFormat ∧ s.ctx.system = .VMSAv8_64 ∧ noBlockRow s.ctx)

/-- R54: the kind of the next-level table address, over all Table formats: an IPA for a stage 1
descriptor of the EL1&0 regime if EL2 is enabled, else a PA; a stage 2 Table always holds a PA. -/
def Obligations.NextTableAddressKind : Prop :=
  ∀ (i : Instr) (s t : State) (dec : Decoded) (a : BitVec 56) (k : AddrKind) (l : Int) (skl : BitVec 2),
    exec i s = .next t → t.output = some dec → nextTable dec.result = some (a, k, l, skl) →
    k = (if s.ctx.stage = .S1 ∧ s.ctx.regime = .EL1_0 ∧ s.ctx.el2_enabled = true then .IPA else .PA)
      ∧ (s.ctx.stage = .S2 → k = .PA)

/-- R55 (with the stored SKL as the Effective one, decision D18): with SKL 0 a level L Table leads to a
level L + 1 table, for L in -2..2. -/
def Obligations.NextTableLevelWithoutSkip : Prop :=
  ∀ (i : Instr) (s t : State) (dec : Decoded) (a : BitVec 56) (k : AddrKind) (l : Int),
    exec i s = .next t → t.output = some dec → nextTable dec.result = some (a, k, l, 0#2) →
    -2 ≤ s.ctx.level ∧ s.ctx.level ≤ 2 ∧ l = s.ctx.level + 1

/-- R53: a next-level table address is aligned to the granule size, over all Table formats. -/
def Obligations.NextTableAddressIsGranuleAligned : Prop :=
  ∀ (i : Instr) (s t : State) (dec : Decoded) (a : BitVec 56) (k : AddrKind) (l : Int) (skl : BitVec 2),
    exec i s = .next t → t.output = some dec → nextTable dec.result = some (a, k, l, skl) →
    a.toNat % 2 ^ (match s.ctx.granule with
      | .G4K => 12
      | .G16K => 14
      | .G64K => 16) = 0

/-- The two transcriptions agree, over all formats: where a row of a field table gives descriptor bits
the bits of a field, the decode's field has exactly those bits (APTable[0] is treated as 0 under nv11,
R103). -/
def Obligations.FieldTablesAgreeWithDecodedFields : Prop :=
  ∀ (i : Instr) (s t : State) (dec : Decoded), exec i s = .next t → t.output = some dec →
    ∀ r ∈ dec.rows, ∀ f hi lo, named r.cls = some (f, hi, lo) →
      hi + r.lo = r.hi + lo ∧ lo ≤ hi
        ∧ ∀ k, lo ≤ k → k ≤ hi →
          dec.result.fieldBit f k
            = some (if f = .APTable ∧ k = 0 ∧ nv11At s.ctx = true then false
              else i.desc.bit (r.lo + (k - lo)))

/-- No field is invented, over all formats: a field bit that the decode yields is held by a row, or is a
zero address bit, or is the constant UXN = 0 under nv11 (R136). -/
def Obligations.EveryDecodedFieldBitHasARow : Prop :=
  ∀ (i : Instr) (s t : State) (dec : Decoded) (f : FieldName) (k : Nat) (b : Bool),
    exec i s = .next t → t.output = some dec → dec.result.fieldBit f k = some b →
    (∃ r ∈ dec.rows, ∃ hi lo, named r.cls = some (f, hi, lo) ∧ lo ≤ k ∧ k ≤ hi)
      ∨ ((f = .NLTA ∨ f = .OAB) ∧ b = false)
      ∨ (f = .UXN ∧ b = false ∧ nv11At s.ctx = true ∧ s.ctx.s1_indirect = false)

/-- Every field table tiles its descriptor under every context: from bit 63 or 127 down to 0, no gap and
no overlap. -/
def Obligations.FieldTablesTileTheDescriptor : Prop :=
  ∀ (i : Instr) (s t : State) (dec : Decoded), exec i s = .next t → t.output = some dec →
    rowsTile (match s.ctx.system with
      | .VMSAv8_64 => 63
      | .VMSAv9_128 => 127) dec.rows = true

/-- R72, over all formats: an IGNORED bit has no effect on the decode and is not reported, whatever its
value: two descriptors that differ in IGNORED bits only lead to the same next state. -/
def Obligations.IgnoredBitsHaveNoEffect : Prop :=
  ∀ (s t : State) (d d' : Desc) (dec : Decoded),
    d.isOf s.ctx.system = true → d'.isOf s.ctx.system = true →
    outcomeOf s d = .next t → t.output = some dec → agreeOn notIgnored dec.rows d d' →
    outcomeOf s d' = .next t

/-- R70, R71 (decision D11), over all formats: a RES0 or RES1 bit has no effect on the type, on any field
or on the output address; two descriptors that differ in IGNORED, RES0 and RES1 bits only yield the same
result. -/
def Obligations.ReservedBitsHaveNoEffectOnFields : Prop :=
  ∀ (s t : State) (d d' : Desc) (dec : Decoded),
    d.isOf s.ctx.system = true → d'.isOf s.ctx.system = true →
    outcomeOf s d = .next t → t.output = some dec → agreeOn isRead dec.rows d d' →
    ∃ t' dec', outcomeOf s d' = .next t' ∧ t'.output = some dec' ∧ dec'.result = dec.result
      ∧ dec'.rows = dec.rows ∧ dec'.oa = dec.oa

/-- R25, R28 to R30, R32, R34, R37, R194: no VMSAv9-128 format reads DS, FEAT_LPA, PnCH and the other
controls of the 64-bit formats. -/
def Obligations.V9FormatsReadNoV8Control : Prop :=
  ∀ (s t : State) (DS LPA BTI BBML1 XNX XS NV hier PnCH ind1 ind2 assured : Bool) (pbha : PbhaEn),
    let c := withV8Controls s.ctx DS LPA BTI BBML1 XNX XS NV hier PnCH ind1 ind2 assured pbha
    s.ctx.system = .VMSAv9_128 → c.wf = true → step s = .next t →
    step { s with ctx := c } = .next { t with ctx := c }

/-- R25, R107 (d): with the 64KB granule DS is not read. -/
def Obligations.DSIsNotReadWithThe64KBGranule : Prop :=
  ∀ (s t : State) (b : Bool), s.ctx.granule = .G64K → step s = .next t →
    step { s with ctx := { s.ctx with DS := b } } = .next { t with ctx := { t.ctx with DS := b } }

/-- R28: NV_NV1 is read only in the EL1&0 regime at stage 1. In that regime at stage 2 its value has no
effect; in every other regime a context that sets it is refused (R46, D22; log entry 20). -/
def Obligations.NVIsReadOnlyInEL1Stage1 : Prop :=
  ∀ (s t : State) (b : Bool), ¬ (s.ctx.regime = .EL1_0 ∧ s.ctx.stage = .S1) → step s = .next t →
    (s.ctx.regime = .EL1_0 →
      step { s with ctx := { s.ctx with NV_NV1 := b } }
        = .next { t with ctx := { t.ctx with NV_NV1 := b } })
    ∧ (s.ctx.regime ≠ .EL1_0 →
      s.ctx.NV_NV1 = false
        ∧ step { s with ctx := { s.ctx with NV_NV1 := true } } = .refused (.context .nvOutsideEL1))

/-- Every step keeps the invariant: memory in canonical form; the outcome coherent, so that an Invalid or
Table outcome has no output address and reports fit (R270, R274), a Table leads to an aligned address
(R53) and a level -1 to 3, an output address continues its OAB, and the rows tile the descriptor. The
level is R55 for SKL 0 and general knowledge G4 for SKL not 0 (PRESUMED, log entry 9); the output address
is the spec's derivation in R59, its absence R270 with decision D9 (DEDUCED, log entry 22). -/
def Obligations.StepKeepsTheInvariant : Prop :=
  ∀ (s t : State), s.inv = true → step s = .next t → t.inv = true

/-- The invariant holds right after reset. -/
def Obligations.ResetMeetsTheInvariant : Prop := State.reset.inv = true

/-- R290 with log entries 1 and 3: after reset `big_endian_walk` is false (the one default the spec
gives), memory lists nothing, nothing was decoded, and the context (the model's choice) is accepted. -/
def Obligations.StateRightAfterReset : Prop :=
  State.reset.ctx.big_endian_walk = false ∧ State.reset.mem = [] ∧ State.reset.output = none
    ∧ State.reset.ctx.wf = true
    ∧ step State.reset = .fault (.memoryNotWritten 0)
end

