-- ==== Sys2Proof/Laws/Bytes.lean ====
section
/-! SUPPORT. Bytes and values: the two directions of the byte order (R52). -/

namespace Sys2Proof

@[simp] theorem leBytes_length (n v : Nat) : (leBytes n v).length = n := by
  induction n generalizing v with
  | zero => rfl
  | succ n ih => simp [leBytes, ih]

@[simp] theorem valueBytes_length (big : Bool) (n v : Nat) : (valueBytes big n v).length = n := by
  cases big <;> simp [valueBytes]

theorem leValue_leBytes (n v : Nat) (h : v < 256 ^ n) : leValue (leBytes n v) = v := by
  induction n generalizing v with
  | zero => simp only [leBytes, leValue]; omega
  | succ n ih =>
    have hlt : v / 256 < 256 ^ n := by
      rw [Nat.pow_succ] at h
      omega
    simp only [leBytes, leValue, ih _ hlt, BitVec.toNat_ofNat]
    omega

theorem bytesValue_valueBytes (big : Bool) (n v : Nat) (h : v < 256 ^ n) :
    bytesValue big (valueBytes big n v) = v := by
  cases big <;> simp [bytesValue, valueBytes, leValue_leBytes n v h]

theorem leValue_lt (bs : List Byte) : leValue bs < 256 ^ bs.length := by
  induction bs with
  | nil => simp [leValue]
  | cons b bs ih =>
    simp only [leValue, List.length_cons, Nat.pow_succ]
    have := b.isLt
    omega

theorem leBytes_leValue (bs : List Byte) : leBytes bs.length (leValue bs) = bs := by
  induction bs with
  | nil => rfl
  | cons b bs ih =>
    have hb := b.isLt
    have hdiv : (b.toNat + 256 * leValue bs) / 256 = leValue bs := by omega
    have hmod : BitVec.ofNat 8 (b.toNat + 256 * leValue bs) = b := by
      apply BitVec.eq_of_toNat_eq
      simp only [BitVec.toNat_ofNat]
      omega
    simp only [List.length_cons, leValue, leBytes, hdiv, hmod, ih]

theorem valueBytes_bytesValue (big : Bool) (bs : List Byte) :
    valueBytes big bs.length (bytesValue big bs) = bs := by
  cases big
  · simp [bytesValue, valueBytes, leBytes_leValue]
  · have := leBytes_leValue bs.reverse
    rw [List.length_reverse] at this
    simp [bytesValue, valueBytes, this]

theorem bytesValue_lt (big : Bool) (bs : List Byte) : bytesValue big bs < 256 ^ bs.length := by
  cases big
  · exact leValue_lt bs
  · simpa [bytesValue] using leValue_lt bs.reverse

@[simp] theorem Desc.bytes_length (big : Bool) (sys : System) (v : Nat) :
    ((sys.desc v).bytes big).length = sys.bytes := by
  cases sys <;> simp [System.desc, Desc.bytes, System.bytes]

/-- The descriptor read from the bytes of a descriptor is that descriptor. -/
theorem desc_of_bytes (big : Bool) (sys : System) (d : Desc) (h : d.isOf sys = true) :
    sys.desc (bytesValue big (d.bytes big)) = d := by
  cases d with
  | d64 d =>
    cases sys with
    | VMSAv8_64 =>
      have := d.isLt
      simp [System.desc, Desc.bytes, bytesValue_valueBytes big 8 d.toNat (by omega)]
    | VMSAv9_128 => simp [Desc.isOf] at h
  | d128 d =>
    cases sys with
    | VMSAv8_64 => simp [Desc.isOf] at h
    | VMSAv9_128 =>
      have := d.isLt
      simp [System.desc, Desc.bytes, bytesValue_valueBytes big 16 d.toNat (by omega)]

/-- The bytes of a descriptor have its system's length. -/
theorem Desc.bytes_length_of (big : Bool) (sys : System) (d : Desc) (h : d.isOf sys = true) :
    (d.bytes big).length = sys.bytes := by
  cases d <;> cases sys <;> simp_all [Desc.isOf, Desc.bytes, System.bytes]

/-- Decoding the bytes of a descriptor decodes the descriptor. -/
theorem decode_bytes (c : Ctx) (d : Desc) (h : d.isOf c.system = true) :
    decode c (d.bytes c.big_endian_walk) = decodeDesc c d := by
  have hl := Desc.bytes_length_of c.big_endian_walk c.system d h
  unfold decode
  rw [if_neg (by omega), ← hl, List.take_length, desc_of_bytes _ _ _ h]

end Sys2Proof
end

