-- ==== Sys2Proof/Laws/State.lean ====
section
/-! SUPPORT. One lemma per field per update of the state. -/

namespace Sys2Proof.Machine

variable (s : State) (d : Decoded) (a : Nat) (x : Desc)

@[simp] theorem State.deliver_ctx : (s.deliver d).ctx = s.ctx := rfl
@[simp] theorem State.deliver_mem : (s.deliver d).mem = s.mem := rfl
@[simp] theorem State.deliver_desc_addr : (s.deliver d).desc_addr = s.desc_addr := rfl
@[simp] theorem State.deliver_ia : (s.deliver d).ia = s.ia := rfl
@[simp] theorem State.deliver_output : (s.deliver d).output = some d := rfl

@[simp] theorem State.storeDesc_ctx : (s.storeDesc a x).ctx = s.ctx := rfl
@[simp] theorem State.storeDesc_mem :
    (s.storeDesc a x).mem = s.mem.writeBytes a (x.bytes s.ctx.big_endian_walk) := rfl
@[simp] theorem State.storeDesc_desc_addr : (s.storeDesc a x).desc_addr = s.desc_addr := rfl
@[simp] theorem State.storeDesc_ia : (s.storeDesc a x).ia = s.ia := rfl
@[simp] theorem State.storeDesc_output : (s.storeDesc a x).output = s.output := rfl

@[simp] theorem State.withRoom_ctx : s.withRoom.ctx = s.ctx := by
  unfold State.withRoom
  split <;> rfl

@[simp] theorem State.withRoom_mem : s.withRoom.mem = s.mem := by
  unfold State.withRoom
  split <;> rfl

@[simp] theorem State.withRoom_ia : s.withRoom.ia = s.ia := by
  unfold State.withRoom
  split <;> rfl

@[simp] theorem State.withRoom_output : s.withRoom.output = s.output := by
  unfold State.withRoom
  split <;> rfl

/-- After `withRoom` a descriptor of either length fits below the top of the address space. -/
theorem State.withRoom_fits : s.withRoom.desc_addr.toNat + 16 ≤ addressSpace := by
  unfold State.withRoom
  split
  · assumption
  · simp [addressSpace]

@[simp] theorem State.withFetchWord_ctx (nbits w : Nat) :
    (s.withFetchWord nbits w).ctx = { s.ctx with system := .ofWidth nbits } := rfl

@[simp] theorem State.withFetchWord_desc_addr (nbits w : Nat) :
    (s.withFetchWord nbits w).desc_addr = s.withRoom.desc_addr := rfl

@[simp] theorem State.withFetchWord_ia (nbits w : Nat) :
    (s.withFetchWord nbits w).ia = s.ia := s.withRoom_ia

@[simp] theorem State.withFetchWord_output (nbits w : Nat) :
    (s.withFetchWord nbits w).output = s.output := s.withRoom_output

end Sys2Proof.Machine
end

