-- ==== Sys2Proof/Laws/Run.lean ====
section
/-! SUPPORT. All that a decode rule can do: the inversion lemmas of the two shared ends of a decode and
of `step`. -/

namespace Sys2Proof.Machine

/-- The checks of R46, R78 and D15 pass exactly in a well-formed context. -/
theorem check_none_iff (c : Ctx) : c.check = none ↔ c.wf = true := by
  unfold Ctx.check Ctx.wf
  simp only [Bool.and_eq_true, Bool.or_eq_true, decide_eq_true_eq, Bool.not_eq_true']
  constructor
  · intro h
    repeat' split at h
    all_goals grind
  · intro h
    repeat' split
    all_goals grind

theorem State.runFormat_next_iff {s t : State} {p : Bool} {d : Decoded} :
    s.runFormat p d = .next t ↔ s.ctx.wf = true ∧ p = true ∧ t = s.deliver d := by
  unfold State.runFormat
  cases hc : s.ctx.check with
  | some r =>
    have : ¬ s.ctx.wf = true := fun h => by simp [(check_none_iff _).2 h] at hc
    simp [this]
  | none =>
    have := (check_none_iff _).1 hc
    cases p <;> simp [this, eq_comm]

theorem State.runFormatWith_next_iff {α : Type} {s t : State} {p : Bool} {x : Option α}
    {why : Refusal} {d : α → Decoded} :
    s.runFormatWith p x why d = .next t ↔
      s.ctx.wf = true ∧ p = true ∧ ∃ v, x = some v ∧ t = s.deliver (d v) := by
  unfold State.runFormatWith
  cases hc : s.ctx.check with
  | some r =>
    have : ¬ s.ctx.wf = true := fun h => by simp [(check_none_iff _).2 h] at hc
    simp [this]
  | none =>
    have := (check_none_iff _).1 hc
    cases p <;> cases x <;> simp [this, eq_comm]

/-- A next state of `step` is a next state of `exec` on the decoded instruction. -/
theorem step_next {s t : State} (h : step s = .next t) :
    ∃ bs i, s.fetchBytes = .ok bs ∧ decode s.ctx bs = .ok i ∧ exec i s = .next t := by
  unfold step at h
  split at h
  · cases h
  · next bs hb =>
    split at h
    · cases h
    · next i hi => exact ⟨bs, i, hb, hi, h⟩

end Sys2Proof.Machine
end

