-- ==== Sys2Proof/Laws/Classify.lean ====
section
/-! SUPPORT. Type determination in terms of the contexts of a format (R74, R76, R152): when each type
results, and when a Block has a format. -/

namespace Sys2Proof

open Sys2Proof.Machine

variable {c : Ctx}

theorem Ctx.wf_level (h : c.wf = true) : -2 ≤ c.level ∧ c.level ≤ 3 := by
  unfold Ctx.wf at h
  simp only [Bool.and_eq_true, decide_eq_true_eq] at h
  omega

/-- Root state goes with the EL3 regime and is refused at stage 2 (R46, D15). -/
theorem Ctx.wf_root (h : c.wf = true) (hr : c.secstate = .Root) : c.regime = .EL3 ∧ c.stage = .S1 := by
  unfold Ctx.wf at h
  simp only [Bool.and_eq_true, hr] at h
  refine ⟨by simpa using h.1.1.2, ?_⟩
  have := h.1.2
  cases hs : c.stage <;> simp_all

/-- {NV, NV1} = {1, 1} goes with the EL1&0 regime (R46). -/
theorem Ctx.wf_nv (h : c.wf = true) (hn : c.NV_NV1 = true) : c.regime = .EL1_0 := by
  unfold Ctx.wf at h
  simp only [Bool.and_eq_true, hn] at h
  simpa using h.1.1.1.2

/-- In an accepted context `nv11` is the control itself. -/
theorem nv11_eq_of_wf (h : c.wf = true) : nv11 c = c.NV_NV1 := by
  unfold nv11
  cases hn : c.NV_NV1
  · simp
  · simp [c.wf_nv h hn]

/-- FNG goes with two privilege levels (D15). -/
theorem Ctx.wf_fng (h : c.wf = true) (hf : c.FNG = true) : c.two_priv = true := by
  unfold Ctx.wf at h
  simp only [Bool.and_eq_true, Bool.or_eq_true] at h
  simpa [hf] using h.2

/-- The complement list of R152 is where R151 has no row. -/
theorem blockShiftV8_eq_none_iff (hl : -2 ≤ c.level) (h3 : c.level < 3) :
    blockShiftV8 c = none ↔ c.noV8BlockFormat = true := by
  have h : c.level = -2 ∨ c.level = -1 ∨ c.level = 0 ∨ c.level = 1 ∨ c.level = 2 := by omega
  unfold blockShiftV8 Ctx.noV8BlockFormat
  cases c.granule <;> cases c.DS <;> cases c.FEAT_LPA <;> rcases h with h | h | h | h | h <;> simp [h]

theorem classifyV9Skl_table_iff {v : Bool} {skl : BitVec 2} :
    classifyV9Skl c v skl = .Table ↔ v = true ∧ c.v9TableHere skl = true := by
  unfold classifyV9Skl Ctx.v9TableHere
  cases v
  · simp
  · simp only [Bool.true_eq_false, if_false, true_and, Bool.and_eq_true, decide_eq_true_eq]
    split
    · next h => split <;> simp_all
    · next h => split <;> (try split) <;> simp_all

theorem classifyV9Skl_leaf_iff {v : Bool} {skl : BitVec 2} :
    classifyV9Skl c v skl = .BlockOrPage ↔ v = true ∧ c.v9LeafHere skl = true := by
  unfold classifyV9Skl Ctx.v9LeafHere
  cases v
  · simp
  · simp only [Bool.true_eq_false, if_false, true_and, Bool.and_eq_true, decide_eq_true_eq]
    split
    · next h =>
      have : ¬ c.level + (skl.toNat : Int) = 3 := by omega
      split <;> simp_all
    · next h => split <;> (try split) <;> simp_all

theorem v9IsTable_eq (skl : BitVec 2) : v9IsTable c skl = c.v9TableHere skl := by
  unfold v9IsTable
  rw [Bool.eq_iff_iff, decide_eq_true_eq, classifyV9Skl_table_iff]
  simp

theorem v9IsLeaf_eq (skl : BitVec 2) : v9IsLeaf c skl = c.v9LeafHere skl := by
  unfold v9IsLeaf
  rw [Bool.eq_iff_iff, decide_eq_true_eq, classifyV9Skl_leaf_iff]
  simp

end Sys2Proof
end

