-- ==== Sys2Proof/Laws/Encoding.lean ====
section
/-! SUPPORT. The ranges of a format tile its descriptor: cutting the encoder's descriptor gives the
ranges back, and joining the ranges of a descriptor gives it back. -/

namespace Sys2Proof

/-- Bits [1:0] below an appended high part. -/
theorem extract_low_append {v w : Nat} (x : BitVec v) (y : BitVec w) :
    (x ++ y).extractLsb' 0 w = y := by
  rw [BitVec.extractLsb'_append_eq_of_add_le (by omega), BitVec.extractLsb'_eq_self]

@[simp] theorem V8TableS1Ops.ofBits_toBits (o : V8TableS1Ops) : V8TableS1Ops.ofBits o.toBits = o := by
  obtain ⟨⟩ := o
  simp only [V8TableS1Ops.ofBits, V8TableS1Ops.mk.injEq]
  refine ⟨?_, ?_, ?_, ?_, ?_, ?_, ?_, ?_, ?_, ?_, ?_, ?_, ?_, ?_⟩ <;>
    · unfold V8TableS1Ops.toBits
      simp (disch := omega) only [BitVec.extractLsb'_append_eq_of_le,
        BitVec.extractLsb'_append_eq_of_add_le]
      simp

theorem V8TableS1Ops.toBits_ofBits (d : Desc64) (h : d.extractLsb' 0 2 = 0b11#2) :
    (V8TableS1Ops.ofBits d).toBits = d := by
  unfold V8TableS1Ops.toBits
  rw [← h]
  simp only [V8TableS1Ops.ofBits]
  simp (disch := omega) only [BitVec.extractLsb'_append_extractLsb'_eq_extractLsb']
  simp

@[simp] theorem V8TableS2Ops.ofBits_toBits (o : V8TableS2Ops) : V8TableS2Ops.ofBits o.toBits = o := by
  obtain ⟨⟩ := o
  simp only [V8TableS2Ops.ofBits, V8TableS2Ops.mk.injEq]
  refine ⟨?_, ?_, ?_, ?_, ?_, ?_, ?_, ?_, ?_, ?_⟩ <;>
    · unfold V8TableS2Ops.toBits
      simp (disch := omega) only [BitVec.extractLsb'_append_eq_of_le,
        BitVec.extractLsb'_append_eq_of_add_le]
      simp

theorem V8TableS2Ops.toBits_ofBits (d : Desc64) (h : d.extractLsb' 0 2 = 0b11#2) :
    (V8TableS2Ops.ofBits d).toBits = d := by
  unfold V8TableS2Ops.toBits
  rw [← h]
  simp only [V8TableS2Ops.ofBits]
  simp (disch := omega) only [BitVec.extractLsb'_append_extractLsb'_eq_extractLsb']
  simp

@[simp] theorem V9TableS1Ops.ofBits_toBits (o : V9TableS1Ops) : V9TableS1Ops.ofBits o.toBits = o := by
  obtain ⟨⟩ := o
  simp only [V9TableS1Ops.ofBits, V9TableS1Ops.mk.injEq]
  refine ⟨?_, ?_, ?_, ?_, ?_, ?_, ?_, ?_, ?_, ?_, ?_, ?_, ?_, ?_, ?_, ?_, ?_, ?_, ?_, ?_⟩ <;>
    · unfold V9TableS1Ops.toBits
      simp (disch := omega) only [BitVec.extractLsb'_append_eq_of_le,
        BitVec.extractLsb'_append_eq_of_add_le]
      simp

theorem V9TableS1Ops.toBits_ofBits (d : Desc128) (h : d.extractLsb' 0 1 = 1#1) :
    (V9TableS1Ops.ofBits d).toBits = d := by
  unfold V9TableS1Ops.toBits
  rw [← h]
  simp only [V9TableS1Ops.ofBits]
  simp (disch := omega) only [BitVec.extractLsb'_append_extractLsb'_eq_extractLsb']
  simp

@[simp] theorem V9TableS2Ops.ofBits_toBits (o : V9TableS2Ops) : V9TableS2Ops.ofBits o.toBits = o := by
  obtain ⟨⟩ := o
  simp only [V9TableS2Ops.ofBits, V9TableS2Ops.mk.injEq]
  refine ⟨?_, ?_, ?_, ?_, ?_, ?_, ?_, ?_, ?_, ?_, ?_, ?_, ?_, ?_, ?_, ?_, ?_, ?_, ?_⟩ <;>
    · unfold V9TableS2Ops.toBits
      simp (disch := omega) only [BitVec.extractLsb'_append_eq_of_le,
        BitVec.extractLsb'_append_eq_of_add_le]
      simp

theorem V9TableS2Ops.toBits_ofBits (d : Desc128) (h : d.extractLsb' 0 1 = 1#1) :
    (V9TableS2Ops.ofBits d).toBits = d := by
  unfold V9TableS2Ops.toBits
  rw [← h]
  simp only [V9TableS2Ops.ofBits]
  simp (disch := omega) only [BitVec.extractLsb'_append_extractLsb'_eq_extractLsb']
  simp

@[simp] theorem V9LeafS1Ops.ofBits_toBits (o : V9LeafS1Ops) : V9LeafS1Ops.ofBits o.toBits = o := by
  obtain ⟨⟩ := o
  simp only [V9LeafS1Ops.ofBits, V9LeafS1Ops.mk.injEq]
  refine ⟨?_, ?_, ?_, ?_, ?_, ?_, ?_, ?_, ?_, ?_, ?_, ?_, ?_, ?_, ?_, ?_, ?_, ?_, ?_, ?_, ?_, ?_⟩ <;>
    · unfold V9LeafS1Ops.toBits
      simp (disch := omega) only [BitVec.extractLsb'_append_eq_of_le,
        BitVec.extractLsb'_append_eq_of_add_le]
      simp

theorem V9LeafS1Ops.toBits_ofBits (d : Desc128) (h : d.extractLsb' 0 1 = 1#1) :
    (V9LeafS1Ops.ofBits d).toBits = d := by
  unfold V9LeafS1Ops.toBits
  rw [← h]
  simp only [V9LeafS1Ops.ofBits]
  simp (disch := omega) only [BitVec.extractLsb'_append_extractLsb'_eq_extractLsb']
  simp

@[simp] theorem V9LeafS2Ops.ofBits_toBits (o : V9LeafS2Ops) : V9LeafS2Ops.ofBits o.toBits = o := by
  obtain ⟨⟩ := o
  simp only [V9LeafS2Ops.ofBits, V9LeafS2Ops.mk.injEq]
  refine ⟨?_, ?_, ?_, ?_, ?_, ?_, ?_, ?_, ?_, ?_, ?_, ?_, ?_, ?_, ?_, ?_, ?_, ?_, ?_, ?_, ?_⟩ <;>
    · unfold V9LeafS2Ops.toBits
      simp (disch := omega) only [BitVec.extractLsb'_append_eq_of_le,
        BitVec.extractLsb'_append_eq_of_add_le]
      simp

theorem V9LeafS2Ops.toBits_ofBits (d : Desc128) (h : d.extractLsb' 0 1 = 1#1) :
    (V9LeafS2Ops.ofBits d).toBits = d := by
  unfold V9LeafS2Ops.toBits
  rw [← h]
  simp only [V9LeafS2Ops.ofBits]
  simp (disch := omega) only [BitVec.extractLsb'_append_extractLsb'_eq_extractLsb']
  simp

@[simp] theorem V8LeafS1Ops.ofBits_toBits (a : V8LeafS1Ops) (m : BitVec 36) (ty : BitVec 2) :
    V8LeafS1Ops.ofBits (a.toBits m ty) = a := by
  obtain ⟨⟩ := a
  simp only [V8LeafS1Ops.ofBits, V8LeafS1Ops.mk.injEq]
  refine ⟨?_, ?_, ?_, ?_, ?_, ?_, ?_, ?_, ?_, ?_, ?_, ?_, ?_, ?_, ?_, ?_, ?_⟩ <;>
    · unfold V8LeafS1Ops.toBits
      simp (disch := omega) only [BitVec.extractLsb'_append_eq_of_le,
        BitVec.extractLsb'_append_eq_of_add_le]
      simp

theorem V8LeafS1Ops.toBits_ofBits (d : Desc64) (ty : BitVec 2) (h : d.extractLsb' 0 2 = ty) :
    (V8LeafS1Ops.ofBits d).toBits (d.extractLsb' 12 36) ty = d := by
  unfold V8LeafS1Ops.toBits
  rw [← h]
  simp only [V8LeafS1Ops.ofBits]
  simp (disch := omega) only [BitVec.extractLsb'_append_extractLsb'_eq_extractLsb']
  simp

@[simp] theorem V8LeafS1Ops.toBits_type (a : V8LeafS1Ops) (m : BitVec 36) (ty : BitVec 2) :
    (a.toBits m ty).extractLsb' 0 2 = ty := by
  unfold V8LeafS1Ops.toBits
  simp (disch := omega) only [BitVec.extractLsb'_append_eq_of_add_le]
  simp

@[simp] theorem V8LeafS1Ops.toBits_middle (a : V8LeafS1Ops) (m : BitVec 36) (ty : BitVec 2) :
    (a.toBits m ty).extractLsb' 12 36 = m := by
  unfold V8LeafS1Ops.toBits
  simp (disch := omega) only [BitVec.extractLsb'_append_eq_of_le,
    BitVec.extractLsb'_append_eq_of_add_le]
  simp

@[simp] theorem V8LeafS1Ops.toBits_block (a : V8LeafS1Ops) (hi : BitVec 31) (nt : Bit) (lo : BitVec 4)
    (ty : BitVec 2) :
    (a.toBits (blockMiddle hi nt lo) ty).extractLsb' 17 31 = hi ∧
      (a.toBits (blockMiddle hi nt lo) ty).extractLsb' 16 1 = nt ∧
      (a.toBits (blockMiddle hi nt lo) ty).extractLsb' 12 4 = lo := by
  refine ⟨?_, ?_, ?_⟩ <;>
    · unfold V8LeafS1Ops.toBits blockMiddle
      simp (disch := omega) only [BitVec.extractLsb'_append_eq_of_le,
        BitVec.extractLsb'_append_eq_of_add_le]
      simp

@[simp] theorem V8LeafS2Ops.ofBits_toBits (a : V8LeafS2Ops) (m : BitVec 36) (ty : BitVec 2) :
    V8LeafS2Ops.ofBits (a.toBits m ty) = a := by
  obtain ⟨⟩ := a
  simp only [V8LeafS2Ops.ofBits, V8LeafS2Ops.mk.injEq]
  refine ⟨?_, ?_, ?_, ?_, ?_, ?_, ?_, ?_, ?_, ?_, ?_, ?_, ?_, ?_, ?_, ?_, ?_, ?_, ?_⟩ <;>
    · unfold V8LeafS2Ops.toBits
      simp (disch := omega) only [BitVec.extractLsb'_append_eq_of_le,
        BitVec.extractLsb'_append_eq_of_add_le]
      simp

theorem V8LeafS2Ops.toBits_ofBits (d : Desc64) (ty : BitVec 2) (h : d.extractLsb' 0 2 = ty) :
    (V8LeafS2Ops.ofBits d).toBits (d.extractLsb' 12 36) ty = d := by
  unfold V8LeafS2Ops.toBits
  rw [← h]
  simp only [V8LeafS2Ops.ofBits]
  simp (disch := omega) only [BitVec.extractLsb'_append_extractLsb'_eq_extractLsb']
  simp

@[simp] theorem V8LeafS2Ops.toBits_type (a : V8LeafS2Ops) (m : BitVec 36) (ty : BitVec 2) :
    (a.toBits m ty).extractLsb' 0 2 = ty := by
  unfold V8LeafS2Ops.toBits
  simp (disch := omega) only [BitVec.extractLsb'_append_eq_of_add_le]
  simp

@[simp] theorem V8LeafS2Ops.toBits_middle (a : V8LeafS2Ops) (m : BitVec 36) (ty : BitVec 2) :
    (a.toBits m ty).extractLsb' 12 36 = m := by
  unfold V8LeafS2Ops.toBits
  simp (disch := omega) only [BitVec.extractLsb'_append_eq_of_le,
    BitVec.extractLsb'_append_eq_of_add_le]
  simp

@[simp] theorem V8LeafS2Ops.toBits_block (a : V8LeafS2Ops) (hi : BitVec 31) (nt : Bit) (lo : BitVec 4)
    (ty : BitVec 2) :
    (a.toBits (blockMiddle hi nt lo) ty).extractLsb' 17 31 = hi ∧
      (a.toBits (blockMiddle hi nt lo) ty).extractLsb' 16 1 = nt ∧
      (a.toBits (blockMiddle hi nt lo) ty).extractLsb' 12 4 = lo := by
  refine ⟨?_, ?_, ?_⟩ <;>
    · unfold V8LeafS2Ops.toBits blockMiddle
      simp (disch := omega) only [BitVec.extractLsb'_append_eq_of_le,
        BitVec.extractLsb'_append_eq_of_add_le]
      simp

/-- Bits [47:12] of a descriptor as the Block ranges [47:17], [16], [15:12]. -/
theorem blockMiddle_ofBits (d : Desc64) :
    blockMiddle (d.extractLsb' 17 31) (d.extractLsb' 16 1) (d.extractLsb' 12 4)
      = d.extractLsb' 12 36 := by
  unfold blockMiddle
  simp (disch := omega) only [BitVec.extractLsb'_append_extractLsb'_eq_extractLsb']

@[simp] theorem V8TableS1Ops.toBits_type (o : V8TableS1Ops) : o.toBits.extractLsb' 0 2 = 0b11#2 := by
  unfold V8TableS1Ops.toBits
  exact extract_low_append _ _

@[simp] theorem V8TableS2Ops.toBits_type (o : V8TableS2Ops) : o.toBits.extractLsb' 0 2 = 0b11#2 := by
  unfold V8TableS2Ops.toBits
  exact extract_low_append _ _

@[simp] theorem V9TableS1Ops.toBits_valid (o : V9TableS1Ops) : o.toBits.extractLsb' 0 1 = 1#1 := by
  unfold V9TableS1Ops.toBits
  exact extract_low_append _ _

@[simp] theorem V9TableS1Ops.toBits_skl (o : V9TableS1Ops) : o.toBits.extractLsb' 109 2 = o.b110_109 :=
  congrArg V9TableS1Ops.b110_109 (ofBits_toBits o)

@[simp] theorem V9TableS2Ops.toBits_valid (o : V9TableS2Ops) : o.toBits.extractLsb' 0 1 = 1#1 := by
  unfold V9TableS2Ops.toBits
  exact extract_low_append _ _

@[simp] theorem V9TableS2Ops.toBits_skl (o : V9TableS2Ops) : o.toBits.extractLsb' 109 2 = o.b110_109 :=
  congrArg V9TableS2Ops.b110_109 (ofBits_toBits o)

@[simp] theorem V9LeafS1Ops.toBits_valid (o : V9LeafS1Ops) : o.toBits.extractLsb' 0 1 = 1#1 := by
  unfold V9LeafS1Ops.toBits
  exact extract_low_append _ _

@[simp] theorem V9LeafS1Ops.toBits_skl (o : V9LeafS1Ops) : o.toBits.extractLsb' 109 2 = o.b110_109 :=
  congrArg V9LeafS1Ops.b110_109 (ofBits_toBits o)

@[simp] theorem V9LeafS2Ops.toBits_valid (o : V9LeafS2Ops) : o.toBits.extractLsb' 0 1 = 1#1 := by
  unfold V9LeafS2Ops.toBits
  exact extract_low_append _ _

@[simp] theorem V9LeafS2Ops.toBits_skl (o : V9LeafS2Ops) : o.toBits.extractLsb' 109 2 = o.b110_109 :=
  congrArg V9LeafS2Ops.b110_109 (ofBits_toBits o)

/-- The ranges of a V9.INVALID descriptor, and its SKL bits. -/
@[simp] theorem v9InvalidBits_ranges (h : BitVec 13) (p : Bit) (l : BitVec 113) (v : Bit) :
    (v9InvalidBits h p l v).extractLsb' 115 13 = h ∧
      (v9InvalidBits h p l v).extractLsb' 114 1 = p ∧
      (v9InvalidBits h p l v).extractLsb' 1 113 = l ∧
      (v9InvalidBits h p l v).extractLsb' 0 1 = v ∧
      (v9InvalidBits h p l v).extractLsb' 109 2 = v9InvalidSkl l := by
  refine ⟨?_, ?_, ?_, ?_, ?_⟩ <;>
    · unfold v9InvalidBits
      simp (disch := omega) only [BitVec.extractLsb'_append_eq_of_le,
        BitVec.extractLsb'_append_eq_of_add_le]
      simp [v9InvalidSkl]

theorem v9InvalidBits_ofBits (d : Desc128) :
    v9InvalidBits (d.extractLsb' 115 13) (d.extractLsb' 114 1) (d.extractLsb' 1 113)
      (d.extractLsb' 0 1) = d := by
  unfold v9InvalidBits
  simp (disch := omega) only [BitVec.extractLsb'_append_extractLsb'_eq_extractLsb']
  simp

end Sys2Proof
end

