-- ==== Sys2Proof/Laws/Exec.lean ====
section
/-! SUPPORT. One lemma per format: its meaning answers a next state exactly where the format applies, and
that state is the old one with this outcome latched. -/

namespace Sys2Proof.Machine

open Sys2Proof

variable {s t : State}

/-- A decode with a plain outcome, where `p` is the format's condition. -/
theorem runFormat_next_wf {p q : Bool} {d : Decoded} (h : s.ctx.wf = true → (p = true ↔ q = true)) :
    s.runFormat p d = .next t ↔ (s.ctx.wf && q) = true ∧ t = s.deliver d := by
  rw [State.runFormat_next_iff]
  constructor
  · rintro ⟨hw, hp, ht⟩
    exact ⟨by simp [hw, (h hw).1 hp], ht⟩
  · rintro ⟨hq, ht⟩
    simp only [Bool.and_eq_true] at hq
    exact ⟨hq.1, (h hq.1).2 hq.2, ht⟩

theorem execV8TableS1_next_iff {o : V8TableS1Ops} :
    execV8TableS1 o s = .next t ↔
      (Instr.v8TableS1 o).wf s.ctx = true ∧ t = s.deliver
        (report (.v8TableS1 (fieldsV8TableS1 s.ctx o)) (rowsV8TableS1 s.ctx) o.toBits .none) := by
  refine runFormat_next_wf fun _ => ?_
  simp

theorem execV8TableS2_next_iff {o : V8TableS2Ops} :
    execV8TableS2 o s = .next t ↔
      (Instr.v8TableS2 o).wf s.ctx = true ∧ t = s.deliver
        (report (.v8TableS2 (fieldsV8TableS2 s.ctx o)) (rowsV8TableS2 s.ctx) o.toBits .none) := by
  refine runFormat_next_wf fun _ => ?_
  simp

theorem execV8BlockS1_next_iff {a : V8LeafS1Ops} {hi : BitVec 31} {nt : Bit} {lo : BitVec 4} :
    execV8BlockS1 a hi nt lo s = .next t ↔
      (Instr.v8BlockS1 a hi nt lo).wf s.ctx = true ∧ ∃ n, blockShiftV8 s.ctx = some n ∧ t = s.deliver
        (report
          (.v8BlockS1 (fieldsV8LeafS1 s.ctx a (oabBlockV8 s.ctx n a.b49_48 hi lo a.b9_8) n
            (presentIf s.ctx.FEAT_BBML1 nt)))
          (rowsV8BlockS1 s.ctx a.b5 n) (a.toBits (blockMiddle hi nt lo) 0b01#2)
          (.oa52 (formOA (oabBlockV8 s.ctx n a.b49_48 hi lo a.b9_8) n s.ia))) := by
  unfold execV8BlockS1
  rw [State.runFormatWith_next_iff]
  simp only [Instr.wf, Bool.and_eq_true, decide_eq_true_eq, Bool.not_eq_true']
  constructor
  · rintro ⟨hw, ⟨hf, h3⟩, n, hn, rfl⟩
    refine ⟨⟨hw, ⟨hf, h3⟩, ?_⟩, n, hn, rfl⟩
    have := blockShiftV8_eq_none_iff (Ctx.wf_level hw).1 h3
    cases hb : s.ctx.noV8BlockFormat <;> simp_all
  · rintro ⟨⟨hw, hf, -⟩, n, hn, rfl⟩
    exact ⟨hw, hf, n, hn, rfl⟩

theorem execV8PageS1_next_iff {a : V8LeafS1Ops} {m : BitVec 36} :
    execV8PageS1 a m s = .next t ↔
      (Instr.v8PageS1 a m).wf s.ctx = true ∧ t = s.deliver
        (report
          (.v8PageS1 (fieldsV8LeafS1 s.ctx a (oabPageV8 s.ctx a.b49_48 m a.b9_8)
            (granuleBits s.ctx.granule) none))
          (rowsV8PageS1 s.ctx a.b5) (a.toBits m 0b11#2)
          (.oa52 (formOA (oabPageV8 s.ctx a.b49_48 m a.b9_8) (granuleBits s.ctx.granule) s.ia))) :=
  runFormat_next_wf fun _ => Iff.rfl

theorem execV8BlockS2_next_iff {a : V8LeafS2Ops} {hi : BitVec 31} {nt : Bit} {lo : BitVec 4} :
    execV8BlockS2 a hi nt lo s = .next t ↔
      (Instr.v8BlockS2 a hi nt lo).wf s.ctx = true ∧ ∃ n, blockShiftV8 s.ctx = some n ∧ t = s.deliver
        (report
          (.v8BlockS2 (fieldsV8LeafS2 s.ctx a (oabBlockV8 s.ctx n a.b49_48 hi lo a.b9_8) n
            (presentIf s.ctx.FEAT_BBML1 nt)))
          (rowsV8BlockS2 s.ctx a.b55 n) (a.toBits (blockMiddle hi nt lo) 0b01#2)
          (.oa52 (formOA (oabBlockV8 s.ctx n a.b49_48 hi lo a.b9_8) n s.ia))) := by
  unfold execV8BlockS2
  rw [State.runFormatWith_next_iff]
  simp only [Instr.wf, Bool.and_eq_true, decide_eq_true_eq, Bool.not_eq_true']
  constructor
  · rintro ⟨hw, ⟨hf, h3⟩, n, hn, rfl⟩
    refine ⟨⟨hw, ⟨hf, h3⟩, ?_⟩, n, hn, rfl⟩
    have := blockShiftV8_eq_none_iff (Ctx.wf_level hw).1 h3
    cases hb : s.ctx.noV8BlockFormat <;> simp_all
  · rintro ⟨⟨hw, hf, -⟩, n, hn, rfl⟩
    exact ⟨hw, hf, n, hn, rfl⟩

theorem execV8PageS2_next_iff {a : V8LeafS2Ops} {m : BitVec 36} :
    execV8PageS2 a m s = .next t ↔
      (Instr.v8PageS2 a m).wf s.ctx = true ∧ t = s.deliver
        (report
          (.v8PageS2 (fieldsV8LeafS2 s.ctx a (oabPageV8 s.ctx a.b49_48 m a.b9_8)
            (granuleBits s.ctx.granule) none))
          (rowsV8PageS2 s.ctx a.b55) (a.toBits m 0b11#2)
          (.oa52 (formOA (oabPageV8 s.ctx a.b49_48 m a.b9_8) (granuleBits s.ctx.granule) s.ia))) :=
  runFormat_next_wf fun _ => Iff.rfl

theorem execV8InvalidS1_next_iff {h : BitVec 11} {p : Bit} {l : BitVec 51} :
    execV8InvalidS1 h p l s = .next t ↔
      (Instr.v8InvalidS1 h p l).wf s.ctx = true ∧ t = s.deliver
        (report (.v8Invalid (presentIf s.ctx.PnCH p) false) (rowsV8InvalidS1 s.ctx)
          (h ++ p ++ l ++ 0#1 : Desc64) .none) :=
  runFormat_next_wf fun _ => Iff.rfl

theorem execV8InvalidS2_next_iff {h : BitVec 63} :
    execV8InvalidS2 h s = .next t ↔
      (Instr.v8InvalidS2 h).wf s.ctx = true ∧ t = s.deliver
        (report (.v8Invalid none false) rowsV8InvalidS2 (h ++ 0#1 : Desc64) .none) :=
  runFormat_next_wf fun _ => Iff.rfl

theorem execV8Reserved_next_iff {h : BitVec 62} :
    execV8Reserved h s = .next t ↔
      (Instr.v8Reserved h).wf s.ctx = true ∧ t = s.deliver
        (report (.v8Invalid none true) rowsV8Reserved (h ++ 0b01#2 : Desc64) .none) :=
  runFormat_next_wf fun _ => Iff.rfl

theorem execV9TableS1_next_iff {o : V9TableS1Ops} :
    execV9TableS1 o s = .next t ↔
      (Instr.v9TableS1 o).wf s.ctx = true ∧ t = s.deliver
        (report (.v9TableS1 (fieldsV9TableS1 s.ctx o)) (rowsV9TableS1 s.ctx o.b110_109) o.toBits .none) :=
  runFormat_next_wf fun _ => by rw [v9IsTable_eq]

theorem execV9BlockPageS1_next_iff {o : V9LeafS1Ops} :
    execV9BlockPageS1 o s = .next t ↔
      (Instr.v9BlockPageS1 o).wf s.ctx = true ∧ t = s.deliver
        (report
          (if s.ctx.level = 3 then .v9PageS1 (fieldsV9LeafS1 s.ctx o)
            else .v9BlockS1 (fieldsV9LeafS1 s.ctx o))
          (rowsV9LeafS1 s.ctx o.b110_109) o.toBits (oaV9 s.ctx (oabV9 s.ctx o.b55_12) s.ia)) :=
  runFormat_next_wf fun _ => by rw [v9IsLeaf_eq]

theorem execV9TableS2_next_iff {o : V9TableS2Ops} :
    execV9TableS2 o s = .next t ↔
      (Instr.v9TableS2 o).wf s.ctx = true ∧ t = s.deliver
        (report (.v9TableS2 (fieldsV9TableS2 s.ctx o)) (rowsV9TableS2 s.ctx o.b110_109) o.toBits .none) :=
  runFormat_next_wf fun _ => by rw [v9IsTable_eq]

theorem execV9BlockPageS2_next_iff {o : V9LeafS2Ops} :
    execV9BlockPageS2 o s = .next t ↔
      (Instr.v9BlockPageS2 o).wf s.ctx = true ∧ t = s.deliver
        (report
          (if s.ctx.level = 3 then .v9PageS2 (fieldsV9LeafS2 s.ctx o)
            else .v9BlockS2 (fieldsV9LeafS2 s.ctx o))
          (rowsV9LeafS2 s.ctx o.b110_109) o.toBits (oaV9 s.ctx (oabV9 s.ctx o.b55_12) s.ia)) :=
  runFormat_next_wf fun _ => by rw [v9IsLeaf_eq]

/-- Where a V9.INVALID descriptor has a cause (R260, R261). -/
theorem v9InvalidCause_isSome {c : Ctx} {h : BitVec 13} {p : Bit} {l : BitVec 113} {v : Bit} :
    (v9InvalidCause c (v9InvalidBits h p l v)).isSome = true ↔
      v = 0#1 ∨ (c.v9TableHere (v9InvalidSkl l) = false ∧ c.v9LeafHere (v9InvalidSkl l) = false) := by
  have hr := v9InvalidBits_ranges h p l v
  have h0 : (v9InvalidBits h p l v).getLsbD 0 = v.getLsbD 0 := by
    conv_rhs => rw [← hr.2.2.2.1]
    rw [BitVec.getLsbD_extractLsb']
    rfl
  have hc : classifyV9 c (v9InvalidBits h p l v) = classifyV9Skl c (v.getLsbD 0) (v9InvalidSkl l) := by
    unfold classifyV9
    rw [h0, hr.2.2.2.2]
  have hv : ∀ v : Bit, v = 0#1 ↔ ¬ v.getLsbD 0 = true := by decide
  have ht := classifyV9Skl_table_iff (c := c) (v := v.getLsbD 0) (skl := v9InvalidSkl l)
  have hl := classifyV9Skl_leaf_iff (c := c) (v := v.getLsbD 0) (skl := v9InvalidSkl l)
  unfold v9InvalidCause
  rw [hc, hv]
  cases hk : classifyV9Skl c (v.getLsbD 0) (v9InvalidSkl l) with
  | Invalid cause =>
    rw [hk] at ht hl
    simp only [reduceCtorEq, false_iff, not_and, Bool.not_eq_true] at ht hl
    simp only [Option.isSome_some, true_iff]
    by_cases hv0 : v.getLsbD 0 = true
    · exact Or.inr ⟨ht hv0, hl hv0⟩
    · exact Or.inl hv0
  | Table =>
    have := ht.1 hk
    simp [this]
  | BlockOrPage =>
    have := hl.1 hk
    simp [this]

theorem execV9Invalid_next_iff {h : BitVec 13} {p : Bit} {l : BitVec 113} {v : Bit} :
    execV9Invalid h p l v s = .next t ↔
      (Instr.v9Invalid h p l v).wf s.ctx = true ∧
        ∃ cause, v9InvalidCause s.ctx (v9InvalidBits h p l v) = some cause ∧ t = s.deliver
          (report (.v9Invalid (v9InvalidProtected s.ctx p v) cause) (rowsV9Invalid s.ctx v)
            (v9InvalidBits h p l v) .none) := by
  unfold execV9Invalid
  rw [State.runFormatWith_next_iff]
  have hs := v9InvalidCause_isSome (c := s.ctx) (h := h) (p := p) (l := l) (v := v)
  simp only [Instr.wf, Bool.and_eq_true, Bool.or_eq_true, decide_eq_true_eq, Bool.not_eq_true']
  constructor
  · rintro ⟨hw, hsys, cause, hc, rfl⟩
    exact ⟨⟨hw, hsys, hs.1 (by simp [hc])⟩, cause, hc, rfl⟩
  · rintro ⟨⟨hw, hsys, -⟩, cause, hc, rfl⟩
    exact ⟨hw, hsys, cause, hc, rfl⟩

/-- All that an instruction can do when it answers a next state: its format applies, and an outcome is
latched. -/
theorem exec_next {i : Instr} (h : exec i s = .next t) :
    i.wf s.ctx = true ∧ ∃ dec, t = s.deliver dec := by
  cases i with
  | v8TableS1 o => exact (execV8TableS1_next_iff.1 h).imp_right fun e => ⟨_, e⟩
  | v8TableS2 o => exact (execV8TableS2_next_iff.1 h).imp_right fun e => ⟨_, e⟩
  | v8BlockS1 a m nt lo => exact (execV8BlockS1_next_iff.1 h).imp_right fun ⟨_, _, e⟩ => ⟨_, e⟩
  | v8PageS1 a m => exact (execV8PageS1_next_iff.1 h).imp_right fun e => ⟨_, e⟩
  | v8BlockS2 a m nt lo => exact (execV8BlockS2_next_iff.1 h).imp_right fun ⟨_, _, e⟩ => ⟨_, e⟩
  | v8PageS2 a m => exact (execV8PageS2_next_iff.1 h).imp_right fun e => ⟨_, e⟩
  | v8InvalidS1 h' p l => exact (execV8InvalidS1_next_iff.1 h).imp_right fun e => ⟨_, e⟩
  | v8InvalidS2 h' => exact (execV8InvalidS2_next_iff.1 h).imp_right fun e => ⟨_, e⟩
  | v8Reserved h' => exact (execV8Reserved_next_iff.1 h).imp_right fun e => ⟨_, e⟩
  | v9TableS1 o => exact (execV9TableS1_next_iff.1 h).imp_right fun e => ⟨_, e⟩
  | v9TableS2 o => exact (execV9TableS2_next_iff.1 h).imp_right fun e => ⟨_, e⟩
  | v9BlockPageS1 o => exact (execV9BlockPageS1_next_iff.1 h).imp_right fun e => ⟨_, e⟩
  | v9BlockPageS2 o => exact (execV9BlockPageS2_next_iff.1 h).imp_right fun e => ⟨_, e⟩
  | v9Invalid h' p l v => exact (execV9Invalid_next_iff.1 h).imp_right fun ⟨_, _, e⟩ => ⟨_, e⟩

end Sys2Proof.Machine
end

