-- ==== Sys2Proof/Laws/Flags.lean ====
section
/-! SUPPORT. The two reports row by row: which rows count, and that a report of joined tables is the
disjunction of their reports (R70, R71). -/

namespace Sys2Proof.Machine

variable {w : Nat} (d : BitVec w)

@[simp] theorem res0Violation_nil : res0Violation [] d = false := rfl

@[simp] theorem res0Violation_cons (r : Row) (rs : List Row) :
    res0Violation (r :: rs) d = (r.isRes0 && r.someOne d || res0Violation rs d) := rfl

@[simp] theorem res0Violation_append (rs rs' : List Row) :
    res0Violation (rs ++ rs') d = (res0Violation rs d || res0Violation rs' d) := by
  simp [res0Violation]

@[simp] theorem res1Violation_nil : res1Violation [] d = false := rfl

@[simp] theorem res1Violation_cons (r : Row) (rs : List Row) :
    res1Violation (r :: rs) d = (r.isRes1 && r.someZero d || res1Violation rs d) := rfl

@[simp] theorem res1Violation_append (rs rs' : List Row) :
    res1Violation (rs ++ rs') d = (res1Violation rs d || res1Violation rs' d) := by
  simp [res1Violation]

variable (hi lo : Nat) (p : Bool) (a b : BitClass)

@[simp] theorem isRes0_classIf :
    (Row.mk hi lo (classIf p a b)).isRes0
      = bif p then (Row.mk hi lo a).isRes0 else (Row.mk hi lo b).isRes0 := by
  cases p <;> rfl

@[simp] theorem isRes1_classIf :
    (Row.mk hi lo (classIf p a b)).isRes1
      = bif p then (Row.mk hi lo a).isRes1 else (Row.mk hi lo b).isRes1 := by
  cases p <;> rfl

@[simp] theorem isRes0_res0 : (Row.mk hi lo .res0).isRes0 = true := rfl
@[simp] theorem isRes0_res1 : (Row.mk hi lo .res1).isRes0 = false := rfl
@[simp] theorem isRes0_ignored : (Row.mk hi lo .ignored).isRes0 = false := rfl
@[simp] theorem isRes0_noRow : (Row.mk hi lo .noRow).isRes0 = false := rfl
@[simp] theorem isRes0_typeBit (v : Bool) : (Row.mk hi lo (.typeBit v)).isRes0 = false := rfl
@[simp] theorem isRes0_bitField (f : FieldName) : (Row.mk hi lo (bitField f)).isRes0 = false := rfl
@[simp] theorem isRes0_field (f : FieldName) (x y : Nat) :
    (Row.mk hi lo (.field f x y)).isRes0 = false := rfl
@[simp] theorem isRes0_software (f : FieldName) (x y : Nat) :
    (Row.mk hi lo (.software f x y)).isRes0 = false := rfl
@[simp] theorem isRes0_systemMmu (f : FieldName) (x y : Nat) :
    (Row.mk hi lo (.systemMmu f x y)).isRes0 = false := rfl

@[simp] theorem isRes1_res1 : (Row.mk hi lo .res1).isRes1 = true := rfl
@[simp] theorem isRes1_res0 : (Row.mk hi lo .res0).isRes1 = false := rfl
@[simp] theorem isRes1_ignored : (Row.mk hi lo .ignored).isRes1 = false := rfl
@[simp] theorem isRes1_noRow : (Row.mk hi lo .noRow).isRes1 = false := rfl
@[simp] theorem isRes1_typeBit (v : Bool) : (Row.mk hi lo (.typeBit v)).isRes1 = false := rfl
@[simp] theorem isRes1_bitField (f : FieldName) : (Row.mk hi lo (bitField f)).isRes1 = false := rfl
@[simp] theorem isRes1_field (f : FieldName) (x y : Nat) :
    (Row.mk hi lo (.field f x y)).isRes1 = false := rfl
@[simp] theorem isRes1_software (f : FieldName) (x y : Nat) :
    (Row.mk hi lo (.software f x y)).isRes1 = false := rfl
@[simp] theorem isRes1_systemMmu (f : FieldName) (x y : Nat) :
    (Row.mk hi lo (.systemMmu f x y)).isRes1 = false := rfl

end Sys2Proof.Machine
end

