-- ==== Sys2Proof/Laws/Memory.lean ====
section
/-! SUPPORT. The laws of memory: what a read gives after a write, and that every operation keeps the
canonical form. -/

namespace Sys2Proof.Machine

theorem Memory.wf_tail {c : Host.Cell} {m : Memory} (h : Memory.wf (c :: m) = true) :
    Memory.wf m = true := by
  cases m with
  | nil => rfl
  | cons e m =>
    obtain ⟨a, x⟩ := c
    obtain ⟨b, y⟩ := e
    simp only [Memory.wf, Bool.and_eq_true] at h
    exact h.2

theorem Memory.read_write_same (m : Memory) (a : Nat) (x : Byte) :
    (m.write a x).read a = some x := by
  induction m with
  | nil => simp [Memory.write, Memory.read]
  | cons e m ih =>
    obtain ⟨b, y⟩ := e
    simp only [Memory.write]
    split
    · simp [Memory.read]
    · split
      · simp [Memory.read]
      · next h => simp [Memory.read, h, ih]

theorem Memory.read_write_other (m : Memory) {a b : Nat} (x : Byte) (h : b ≠ a) :
    (m.write a x).read b = m.read b := by
  induction m with
  | nil => simp [Memory.write, Memory.read, h]
  | cons e m ih =>
    obtain ⟨c, y⟩ := e
    simp only [Memory.write]
    split
    · simp [Memory.read, h]
    · split
      · next h' => subst h'; simp [Memory.read, h]
      · simp [Memory.read, ih]

/-- The first address of a canonical memory after a write. -/
theorem Memory.wf_cons_write {b : Nat} {y : Byte} {m : Memory} {a : Nat} {x : Byte}
    (hba : b < a) (hm : Memory.wf ((b, y) :: m) = true) (hw : Memory.wf (m.write a x) = true) :
    Memory.wf ((b, y) :: m.write a x) = true := by
  cases m with
  | nil => simp [Memory.write, Memory.wf, hba]
  | cons e m =>
    obtain ⟨c, z⟩ := e
    simp only [Memory.wf, Bool.and_eq_true, decide_eq_true_eq] at hm
    simp only [Memory.write] at hw ⊢
    split
    · next h =>
      rw [if_pos h] at hw
      simp only [Memory.wf, Bool.and_eq_true, decide_eq_true_eq] at hw ⊢
      exact ⟨hba, hw⟩
    · next h =>
      rw [if_neg h] at hw
      split
      · next h' =>
        rw [if_pos h'] at hw
        simp only [Memory.wf, Bool.and_eq_true, decide_eq_true_eq]
        exact ⟨hba, hw⟩
      · next h' =>
        rw [if_neg h'] at hw
        simp only [Memory.wf, Bool.and_eq_true, decide_eq_true_eq]
        exact ⟨hm.1, hw⟩

theorem Memory.wf_write {m : Memory} (h : m.wf = true) (a : Nat) (x : Byte) :
    (m.write a x).wf = true := by
  induction m with
  | nil => rfl
  | cons e m ih =>
    obtain ⟨b, y⟩ := e
    have hw := ih (Memory.wf_tail h)
    simp only [Memory.write]
    split
    · next hlt => simp only [Memory.wf, Bool.and_eq_true, decide_eq_true_eq]; exact ⟨hlt, h⟩
    · split
      · next heq =>
        subst heq
        cases m with
        | nil => rfl
        | cons e m => obtain ⟨c, z⟩ := e; simpa only [Memory.wf] using h
      · next h1 h2 => exact Memory.wf_cons_write (by omega) h hw

theorem Memory.wf_writeBytes {m : Memory} (h : m.wf = true) (a : Nat) (xs : List Byte) :
    (m.writeBytes a xs).wf = true := by
  induction xs generalizing m a with
  | nil => exact h
  | cons x xs ih => exact ih (Memory.wf_write h a x) (a + 1)

theorem State.storeDesc_keeps_wf {s : State} (h : s.mem.wf = true) (a : Nat) (d : Desc) :
    (s.storeDesc a d).mem.wf = true :=
  Memory.wf_writeBytes h a _

theorem State.reset_mem_wf : State.reset.mem.wf = true := rfl

/-- An address outside the stored bytes reads as before. -/
theorem Memory.read_writeBytes_outside (m : Memory) (a : Nat) (xs : List Byte) {b : Nat}
    (h : b < a ∨ a + xs.length ≤ b) : (m.writeBytes a xs).read b = m.read b := by
  induction xs generalizing m a with
  | nil => rfl
  | cons x xs ih =>
    simp only [Memory.writeBytes]
    simp only [List.length_cons] at h
    rw [ih _ _ (by omega), Memory.read_write_other m x (by omega)]

/-- The stored bytes read back. -/
theorem Memory.read_writeBytes_inside (m : Memory) (a : Nat) (xs : List Byte) {k : Nat}
    (h : k < xs.length) : (m.writeBytes a xs).read (a + k) = some xs[k] := by
  induction xs generalizing m a k with
  | nil => simp at h
  | cons x xs ih =>
    simp only [Memory.writeBytes]
    cases k with
    | zero =>
      rw [Memory.read_writeBytes_outside _ _ _ (by omega)]
      exact Memory.read_write_same m a x
    | succ k =>
      have h' : k < xs.length := by simpa using h
      have := ih (m.write a x) (a + 1) h'
      rw [show a + (k + 1) = a + 1 + k by omega, this]
      simp

/-- `MemRead` answers the bytes that memory holds. -/
theorem State.memRead_eq_ok (s : State) (a : Nat) (bs : List Byte)
    (hroom : a + bs.length ≤ addressSpace)
    (h : ∀ k (hk : k < bs.length), s.mem.read (a + k) = some bs[k]) :
    s.memRead a bs.length = .ok bs := by
  induction bs generalizing a with
  | nil => rfl
  | cons b bs ih =>
    have h0 : s.mem.read a = some b := h 0 (Nat.zero_lt_succ _)
    have hb : s.readByte a = .ok b := by
      unfold State.readByte
      simp only [List.length_cons] at hroom
      rw [if_neg (by omega), h0]
    have ht : s.memRead (a + 1) bs.length = .ok bs := by
      refine ih (a + 1) (by simp only [List.length_cons] at hroom; omega) ?_
      intro k hk
      have := h (k + 1) (by simpa using hk)
      rw [show a + 1 + k = a + (k + 1) by omega]
      exact this
    simp only [List.length_cons, State.memRead, hb, ht]

/-- What `MemRead` answers depends on the bytes it reads only. -/
theorem State.memRead_congr {s t : State} (a n : Nat)
    (h : ∀ b, a ≤ b → b < a + n → s.mem.read b = t.mem.read b) :
    s.memRead a n = t.memRead a n := by
  induction n generalizing a with
  | zero => rfl
  | succ n ih =>
    have hb : s.readByte a = t.readByte a := by
      unfold State.readByte
      rw [h a (by omega) (by omega)]
    simp only [State.memRead, hb, ih (a + 1) (fun b h1 h2 => h b (by omega) (by omega))]

theorem State.memRead_length {s : State} {a n : Nat} {bs : List Byte}
    (h : s.memRead a n = .ok bs) : bs.length = n := by
  induction n generalizing a bs with
  | zero => cases h; rfl
  | succ n ih =>
    simp only [State.memRead] at h
    split at h
    · cases h
    · split at h
      · cases h
      · next hx _ hxs => cases h; simp [ih hxs]

end Sys2Proof.Machine
end

