-- ==== Sys2Proof/Laws/PerInstr.lean ====
section
/-! SUPPORT. FixedBits: every descriptor the encoder writes for a format has the bits that the format's
row of spec/opcode_table.json fixes (its match and mask). A V9.INVALID descriptor has the bit [0] it
carries: the row's mask covers only bit [0] = 0 (R260). -/

namespace Sys2Proof.Laws.FixedBits

/-- The fixed bits of a row: bit number and value. -/
def fixed : Instr → List (Nat × Bool)
  | .v8TableS1 _ => [(1, true), (0, true)]
  | .v8TableS2 _ => [(1, true), (0, true)]
  | .v8BlockS1 _ _ _ _ => [(1, false), (0, true)]
  | .v8PageS1 _ _ => [(1, true), (0, true)]
  | .v8BlockS2 _ _ _ _ => [(1, false), (0, true)]
  | .v8PageS2 _ _ => [(1, true), (0, true)]
  | .v8InvalidS1 _ _ _ => [(0, false)]
  | .v8InvalidS2 _ => [(0, false)]
  | .v8Reserved _ => [(1, false), (0, true)]
  | .v9TableS1 _ => [(0, true)]
  | .v9TableS2 _ => [(0, true)]
  | .v9BlockPageS1 _ => [(0, true)]
  | .v9BlockPageS2 _ => [(0, true)]
  | .v9Invalid _ _ _ b0 => [(0, b0.getLsbD 0)]

/-- The encoder's descriptor has the row's fixed bits. -/
def Statement (i : Instr) : Prop := ∀ p ∈ fixed i, i.desc.bit p.1 = p.2

/-- A bit of the lowest appended part. -/
theorem getLsbD_low {v w : Nat} (x : BitVec v) (y : BitVec w) (k : Nat) (h : k < w) :
    (x ++ y).getLsbD k = y.getLsbD k := by
  simp [BitVec.getLsbD_append, h]

theorem two_fixed (d : Desc64) (b1 b0 : Bool) (h1 : d.getLsbD 1 = b1) (h0 : d.getLsbD 0 = b0) :
    ∀ p ∈ [(1, b1), (0, b0)], Desc.bit (.d64 d) p.1 = p.2 := by
  intro p hp
  simp only [List.mem_cons, List.not_mem_nil, or_false] at hp
  rcases hp with rfl | rfl
  · exact h1
  · exact h0

theorem one_fixed (d : Desc) (b0 : Bool) (h0 : d.bit 0 = b0) :
    ∀ p ∈ [(0, b0)], d.bit p.1 = p.2 := by
  intro p hp
  simp only [List.mem_cons, List.not_mem_nil, or_false] at hp
  subst hp
  exact h0

theorem v8TableS1 (o : V8TableS1Ops) : Statement (.v8TableS1 o) :=
  two_fixed _ _ _ (getLsbD_low _ _ 1 (by decide)) (getLsbD_low _ _ 0 (by decide))

theorem v8TableS2 (o : V8TableS2Ops) : Statement (.v8TableS2 o) :=
  two_fixed _ _ _ (getLsbD_low _ _ 1 (by decide)) (getLsbD_low _ _ 0 (by decide))

theorem v8BlockS1 (a : V8LeafS1Ops) (m : BitVec 31) (nt : Bit) (lo : BitVec 4) : Statement (.v8BlockS1 a m nt lo) :=
  two_fixed _ _ _ (getLsbD_low _ _ 1 (by decide)) (getLsbD_low _ _ 0 (by decide))

theorem v8PageS1 (a : V8LeafS1Ops) (m : BitVec 36) : Statement (.v8PageS1 a m) :=
  two_fixed _ _ _ (getLsbD_low _ _ 1 (by decide)) (getLsbD_low _ _ 0 (by decide))

theorem v8BlockS2 (a : V8LeafS2Ops) (m : BitVec 31) (nt : Bit) (lo : BitVec 4) : Statement (.v8BlockS2 a m nt lo) :=
  two_fixed _ _ _ (getLsbD_low _ _ 1 (by decide)) (getLsbD_low _ _ 0 (by decide))

theorem v8PageS2 (a : V8LeafS2Ops) (m : BitVec 36) : Statement (.v8PageS2 a m) :=
  two_fixed _ _ _ (getLsbD_low _ _ 1 (by decide)) (getLsbD_low _ _ 0 (by decide))

theorem v8InvalidS1 (h : BitVec 11) (p : Bit) (l : BitVec 51) : Statement (.v8InvalidS1 h p l) :=
  one_fixed _ _ (getLsbD_low _ _ 0 (by decide))

theorem v8InvalidS2 (h : BitVec 63) : Statement (.v8InvalidS2 h) :=
  one_fixed _ _ (getLsbD_low _ _ 0 (by decide))

theorem v8Reserved (h : BitVec 62) : Statement (.v8Reserved h) :=
  two_fixed _ _ _ (getLsbD_low _ _ 1 (by decide)) (getLsbD_low _ _ 0 (by decide))

theorem v9TableS1 (o : V9TableS1Ops) : Statement (.v9TableS1 o) :=
  one_fixed _ _ (getLsbD_low _ _ 0 (by decide))

theorem v9TableS2 (o : V9TableS2Ops) : Statement (.v9TableS2 o) :=
  one_fixed _ _ (getLsbD_low _ _ 0 (by decide))

theorem v9BlockPageS1 (o : V9LeafS1Ops) : Statement (.v9BlockPageS1 o) :=
  one_fixed _ _ (getLsbD_low _ _ 0 (by decide))

theorem v9BlockPageS2 (o : V9LeafS2Ops) : Statement (.v9BlockPageS2 o) :=
  one_fixed _ _ (getLsbD_low _ _ 0 (by decide))

theorem v9Invalid (h : BitVec 13) (p : Bit) (l : BitVec 113) (v : Bit) : Statement (.v9Invalid h p l v) :=
  one_fixed _ _ (getLsbD_low _ _ 0 (by decide))

end Sys2Proof.Laws.FixedBits
end

