-- ==== Sys2Proof/Tests/Slice0.lean ====
section
/-! SUPPORT. Tests of single steps against the vectors of spec/95_test_vectors.md, the checks of
WellFormed, and for every obligation with hypotheses a state and operands that meet them together. The
expected values are the spec's, never the model's answers. -/

namespace Sys2Proof.Tests

open Sys2Proof.Machine Sys2Proof.Claims

/-! ### Small states -/

/-- The context the spec's vectors share, at a stage and level (spec/95_test_vectors.md section 4). -/
def v8 (st : Stage) (l : Int) : Ctx := { Ctx.reset with stage := st, level := l }

/-- The same for VMSAv9-128. -/
def v9 (st : Stage) (l : Int) : Ctx := { v8 st l with system := .VMSAv9_128 }

/-- A state with a context and an input address. -/
def st (c : Ctx) (ia : BitVec 64 := 0) : State := { State.reset with ctx := c, ia := ia }

/-- What one step makes of a descriptor value. -/
def run (c : Ctx) (w : Nat) (ia : BitVec 64 := 0) : Option Decoded :=
  match step ((st c ia).withFetchWord (8 * c.system.bytes) w) with
  | .next t => t.output
  | _ => none

/-- Its refusal. -/
def refusal (c : Ctx) (w : Nat) : Option Refusal :=
  match step ((st c).withFetchWord (8 * c.system.bytes) w) with
  | .refused r => some r
  | _ => none

/-- Its two reports. -/
def reports (d : Option Decoded) : Option (Bool × Bool) :=
  d.map fun d => (d.res0_violation, d.res1_violation)

def tableS1 (d : Option Decoded) : Option V8TableS1 :=
  match d with
  | some ⟨.v8TableS1 f, _, _, _, _⟩ => some f
  | _ => none

def tableS2 (d : Option Decoded) : Option V8TableS2 :=
  match d with
  | some ⟨.v8TableS2 f, _, _, _, _⟩ => some f
  | _ => none

def blockS1 (d : Option Decoded) : Option V8LeafS1 :=
  match d with
  | some ⟨.v8BlockS1 f, _, _, _, _⟩ => some f
  | _ => none

def pageS1 (d : Option Decoded) : Option V8LeafS1 :=
  match d with
  | some ⟨.v8PageS1 f, _, _, _, _⟩ => some f
  | _ => none

def blockS2 (d : Option Decoded) : Option V8LeafS2 :=
  match d with
  | some ⟨.v8BlockS2 f, _, _, _, _⟩ => some f
  | _ => none

def pageS2 (d : Option Decoded) : Option V8LeafS2 :=
  match d with
  | some ⟨.v8PageS2 f, _, _, _, _⟩ => some f
  | _ => none

def table9S1 (d : Option Decoded) : Option V9TableS1 :=
  match d with
  | some ⟨.v9TableS1 f, _, _, _, _⟩ => some f
  | _ => none

def table9S2 (d : Option Decoded) : Option V9TableS2 :=
  match d with
  | some ⟨.v9TableS2 f, _, _, _, _⟩ => some f
  | _ => none

def block9S1 (d : Option Decoded) : Option V9LeafS1 :=
  match d with
  | some ⟨.v9BlockS1 f, _, _, _, _⟩ => some f
  | _ => none

def page9S1 (d : Option Decoded) : Option V9LeafS1 :=
  match d with
  | some ⟨.v9PageS1 f, _, _, _, _⟩ => some f
  | _ => none

def page9S2 (d : Option Decoded) : Option V9LeafS2 :=
  match d with
  | some ⟨.v9PageS2 f, _, _, _, _⟩ => some f
  | _ => none

/-! ### One step per format, against the spec's vectors -/

/-- TA2 (R103, {NV, NV1} = {1, 1}). -/
theorem test_TA2_hierarchical_nv :
    (tableS1 (run { v8 .S1 1 with hier_perm := true, NV_NV1 := true } 0x7000000080001003)).map
        (fun f => (f.APTable, f.XNTable, f.UXNTable, f.PXNTable, f.next_level))
      = some (some 2, none, none, some 1, 2) := by decide

/-- TA9 (R104): d[9:8] and d[49:48] are address bits with DS = 1. -/
theorem test_TA9_wide_address :
    (tableS1 (run { v8 .S1 0 with DS := true } 0x0002000000001103)).map (·.NLTA)
      = some 0x6000000001000 := by decide

/-- TB1 (R117). -/
theorem test_TB1_table_stage2 :
    (tableS2 (run { v8 .S2 0 with granule := .G16K, DS := true, hw_table_af := true }
        0x0003000000004703)).map (fun f => (f.NLTA, f.AF))
      = some (0xf000000004000, some 1) := by decide

/-- TB2 (R116): [62:59] are RES0 without stage 2 indirect permissions. -/
theorem test_TB2_reserved_stage2 :
    reports (run (v8 .S2 1) 0x0800000080001003) = some (true, false) := by decide

/-- BA34 (R151): 16KB level 1, DS = 1. -/
theorem test_BA34_block_16K :
    (blockS1 (run { v8 .S1 1 with granule := .G16K, DS := true } 0x0001001000000501)).map
        (fun f => (f.OAB, f.n, f.SH))
      = some (0x5001000000000, 36, none) := by decide

/-- OA5 (R59): 4KB level 0, DS = 1. -/
theorem test_OA5_block_address :
    (run { v8 .S1 0 with DS := true } 0x0003008000000701 0x0000007FFFFFFFFF).map (·.oa)
      = some (.oa52 0xF00FFFFFFFFFF) := by decide

/-- BA3 (R136): one privilege level: bit [6] RES1, bit [11] RES0; R71 under {NV, NV1} = {1, 1} too. -/
theorem test_BA3_single_privilege :
    (pageS1 (run { v8 .S1 3 with regime := .EL2, two_priv := false } 0x0040000080000F83)).map
        (fun f => (f.AP2, f.XN, f.nG)) = some (some 1, some 1, none)
      ∧ reports (run { v8 .S1 3 with regime := .EL2, two_priv := false } 0x0040000080000F83)
        = some (true, true)
      ∧ reports (run { v8 .S1 3 with two_priv := false, NV_NV1 := true } 0x0040000080000703)
        = some (false, true) := by decide

/-- BA6 (R136): PIIndex = d[54] : d[53] : d[51] : d[6]. -/
theorem test_BA6_indirect :
    (pageS1 (run { v8 .S1 3 with s1_indirect := true } 0x0048000080000783)).map
        (fun f => (f.PIIndex, f.nDirty, f.AP2)) = some (some 0xA, some 1, none) := by decide

/-- OA4 (R151, R59): 64KB level 2 with FEAT_LPA. -/
theorem test_OA4_block_stage2 :
    (run { v8 .S2 2 with granule := .G64K, FEAT_LPA := true } 0x000000002000A4FD
        0x0000012341234567).map (·.oa)
      = some (.oa52 0xA000021234567) := by decide

/-- BB20 (R151): 4KB level 2 at stage 2. -/
theorem test_BB20_block_stage2 :
    (blockS2 (run (v8 .S2 2) 0x0000000040200401)).map (fun f => (f.OAB, f.n, f.nT, f.S2AP))
      = some (0x40200000, 21, none, some 0) := by decide

/-- BB7 (R160): PIIndex and Dirty at stage 2. -/
theorem test_BB7_indirect_stage2 :
    (pageS2 (run { v8 .S2 3 with s2_indirect := true } 0x0028000080000483)).map
        (fun f => (f.PIIndex, f.Dirty, f.XN)) = some (some 6, some 1, none) := by decide

/-- BB14 (R158): Realm with NS = 1: no AMEC, bit [63] RES0. -/
theorem test_BB14_realm :
    (pageS2 (run { v8 .S2 3 with secstate := .Realm } 0x8080000080000403)).map
        (fun f => (f.NS, f.AMEC)) = some (some 1, none)
      ∧ reports (run { v8 .S2 3 with secstate := .Realm } 0x8080000080000403)
        = some (true, false) := by decide

/-- IA3 (R181): every other bit set. -/
theorem test_IA3_invalid_protected :
    (run { v8 .S1 3 with PnCH := true } 0xFFFFFFFFFFFFFFFE).map (fun d => (d.result, d.oa))
      = some (.v8Invalid (some 1) false, .none) := by decide

/-- IA4 (R181): PnCH = 0. -/
theorem test_IA4_invalid_ignored :
    (run (v8 .S1 3) 0xFFFFFFFFFFFFFFFE).map (·.result) = some (.v8Invalid none false) := by decide

/-- IA6 (R183). -/
theorem test_IA6_invalid_stage2 :
    (run { v8 .S2 2 with PnCH := true } 0xDEADBEEFDEADBEEE).map (·.result)
      = some (.v8Invalid none false) := by decide

/-- IA8 (R184): Protected is not extracted. -/
theorem test_IA8_reserved :
    (run { v8 .S1 3 with PnCH := true } 0x0010000080000401).map (·.result)
      = some (.v8Invalid none true) := by decide

/-- IA9 (R184): stage 2. -/
theorem test_IA9_reserved_stage2 :
    (run (v8 .S2 3) 0x0000000080000401).map (·.result) = some (.v8Invalid none true) := by decide

/-- TC3 (R195): level -2 with SKL = 3. -/
theorem test_TC3_skip :
    (table9S1 (run (v9 .S1 (-2)) 0x00006000000000000000000080001001)).map
        (fun f => (f.SKL, f.next_level, f.nT)) = some (3, 2, some 0) := by decide

/-- TC8 (R195): Protected and DisCH. -/
theorem test_TC8_protected :
    (table9S1 (run { v9 .S1 1 with FEAT_THE := true } 0x00050000000000000000000080001001)).map
        (fun f => (f.Protected, f.DisCH)) = some (some 1, 1) := by decide

/-- TD4 (R207): bit [112] is RES0 at stage 2. -/
theorem test_TD4_reserved :
    reports (run (v9 .S2 1) 0x00010000000000000000000080001001) = some (true, false) := by decide

/-- TD6 (R207): level 0 with SKL = 2. -/
theorem test_TD6_skip_stage2 :
    (table9S2 (run (v9 .S2 0) 0x00004000000000000000000080001841)).map
        (fun f => (f.NLTA, f.next_level, f.nT)) = some (0x80001000, 3, some 1) := by decide

/-- BC11 (R227). -/
theorem test_BC11_page :
    (page9S1 (run { v9 .S1 3 with s1_overlay := true, FEAT_S1POE := true }
        0x1A7A8000000000000000000080000785)).map
        (fun f => (f.POIndex, f.PIIndex, f.GP, f.Contiguous, f.nDirty))
      = some (some 0xD, 0xF, 1, 1, 1) := by decide

/-- BC2, OA9 (R226, R227): a Block at level 2, its OA not formed without the size parameter. -/
theorem test_BC2_block :
    (block9S1 (run (v9 .S1 2) 0x00002000000000000000000080000F45)).map
        (fun f => (f.OAB, f.nT, f.nG)) = some (0x80000000, some 1, some 1)
      ∧ (run (v9 .S1 2) 0x00002000000000000000000080000F45).map (·.oa)
        = some .blockSizeNotGiven := by decide

/-- BD1 (R242): bit [6] is RES0 with SKL = 0. -/
theorem test_BD1_page_stage2 :
    (page9S2 (run { v9 .S2 3 with granule := .G16K, s2_overlay := true, FEAT_THE := true }
        0x140400000000000000000000400044FD)).map (fun f => (f.OAB, f.POIndex, f.AssuredOnly, f.Dirty))
      = some (0x40004000, some 0xA, some 1, 1)
      ∧ reports (run { v9 .S2 3 with granule := .G16K, s2_overlay := true, FEAT_THE := true }
        0x140400000000000000000000400044FD) = some (true, false) := by decide

/-- OA8 (R59, R226). -/
theorem test_OA8_address :
    (run { v9 .S2 3 with granule := .G16K, s2_overlay := true, FEAT_THE := true }
        0x140400000000000000000000400044BD 0x3FFF).map (·.oa)
      = some (.oa56 0x40007FFF) := by decide

/-- ID3 (R261): stage 2 extracts no Protected. -/
theorem test_ID3_invalid_stage2 :
    (run { v9 .S2 0 with FEAT_THE := true } 0x00040000000000000000000000000000).map (·.result)
      = some (.v9Invalid none .BitZero) := by decide

/-- BC4 (R261): level 3 with SKL = 1. -/
theorem test_BC4_sum_above_3 :
    (run (v9 .S1 3) 0x00002000000000000000000080000F05).map (·.result)
      = some (.v9Invalid none .SumAbove3) := by decide

/-- BA31 (R152): 4KB level 0, DS = 0. -/
theorem test_BA31_no_block_format :
    refusal (v8 .S1 0) 0x0000008000000701 = some .noBlockFormat := by decide

/-- BA18's context breaks the implication of R32 that R46 refuses (D22); the rule wins over the
vector. -/
theorem test_BA18_context_refused :
    refusal { v8 .S1 3 with pbha_en := ⟨true, true, true, true⟩ } 0x5800000080000743
      = some (.context .pbhaWithoutHPDS2) := by decide

/-- The byte order line of spec/95_test_vectors.md section 5. -/
theorem test_byte_order :
    (Desc.d64 0x0060000080000F47).bytes false = [0x47, 0x0F, 0x00, 0x80, 0x00, 0x00, 0x60, 0x00]
      ∧ (Desc.d64 0x0060000080000F47).bytes true
        = [0x00, 0x60, 0x00, 0x00, 0x80, 0x00, 0x0F, 0x47] := by decide

/-- The 128-bit line. -/
theorem test_byte_order_128 :
    (Desc.d128 0x00080000000000000000000080000F05).bytes false
      = [0x05, 0x0F, 0x00, 0x80, 0x00, 0x00, 0x00, 0x00, 0x00, 0x00, 0x00, 0x00, 0x00, 0x00, 0x08,
        0x00] := by decide

/-! ### Each format's word, written out from the spec's encoding, bit range by bit range -/

/-- V8.TABLE.S1: ranges 63 62:61 60 59 58:53 52 51 50 49:48 47:12 11 10 9:8 7:2 and the type bits.
-/
theorem test_decode_v8TableS1 :
    decodeDesc (v8 .S1 1) (.d64
        0b1_01_1_0_000101_0_1_0_11_000000110110111101100111010111001101_0_1_10_000101_11)
      = .ok (.v8TableS1 ⟨1, 1, 1, 0, 5, 0, 1, 0, 3, 0x36f675cd, 0, 1, 2, 5⟩) := by decide

/-- V8.TABLE.S2: ranges 63 62:59 58:51 50 49:48 47:12 11 10 9:8 7:2 and the type bits. -/
theorem test_decode_v8TableS2 :
    decodeDesc (v8 .S2 1) (.d64
        0b0_0010_10001110_1_01_100111010011101011001001010010110000_0_0_11_101001_11)
      = .ok (.v8TableS2 ⟨0, 2, 0x8e, 1, 1, 0x9d3ac94b0, 0, 0, 3, 0x29⟩) := by decide

/-- V8.BLOCK.S1: ranges 63 62:60 59 58:55 54 53 52 51 50 49:48 47:17 16 15:12 11 10 9:8 7 6 5 4:2
and the type bits. -/
theorem test_decode_v8BlockS1 :
    decodeDesc (v8 .S1 2) (.d64
        0b0_101_1_0001_0_0_0_1_1_01_1000101001101010011000111110111_0_1010_1_0_01_0_1_0_101_01)
      = .ok (.v8BlockS1 ⟨0, 5, 1, 1, 0, 0, 0, 1, 1, 1, 1, 0, 1, 0, 1, 0, 5⟩ 0x453531f7 0 0xa) := by
        decide

/-- V8.PAGE.S1: ranges 63 62:60 59 58:55 54 53 52 51 50 49:48 47:12 11 10 9:8 7 6 5 4:2 and the type
bits. -/
theorem test_decode_v8PageS1 :
    decodeDesc (v8 .S1 3) (.d64
        0b0_101_0_1010_0_1_1_1_1_11_011111101100011001101010011110001000_1_1_01_0_0_0_101_11)
      = .ok (.v8PageS1 ⟨0, 5, 0, 0xa, 0, 1, 1, 1, 1, 3, 1, 1, 1, 0, 0, 0, 5⟩ 0x7ec66a788) := by
        decide

/-- V8.BLOCK.S2: ranges 63 62:60 59 58 57:56 55 54 53 52 51 50 49:48 47:17 16 15:12 11 10 9:8 7 6 5
4:2 and the type bits. -/
theorem test_decode_v8BlockS2 :
    decodeDesc (v8 .S2 2) (.d64
        0b1_101_1_1_11_1_1_0_0_1_0_10_0010011011101000011101010101011_1_0111_0_0_11_1_1_1_101_01)
      = .ok (.v8BlockS2 ⟨1, 5, 1, 1, 3, 1, 1, 0, 0, 1, 0, 2, 0, 0, 3, 1, 1, 1, 5⟩ 0x13743aab 1 7) :=
        by decide

/-- V8.PAGE.S2: ranges 63 62:60 59 58 57:56 55 54 53 52 51 50 49:48 47:12 11 10 9:8 7 6 5 4:2 and
the type bits. -/
theorem test_decode_v8PageS2 :
    decodeDesc (v8 .S2 3) (.d64
        0b1_101_1_0_01_1_1_0_0_1_1_10_011010110111011101001110101101010011_1_0_10_1_0_0_100_11)
      = .ok (.v8PageS2 ⟨1, 5, 1, 0, 1, 1, 1, 0, 0, 1, 1, 2, 1, 0, 2, 1, 0, 0, 4⟩ 0x6b774eb53) := by
        decide

/-- V8.INVALID.S1: ranges 63:53 52 51:1 and the type bits. -/
theorem test_decode_v8InvalidS1 :
    decodeDesc (v8 .S1 1) (.d64
        0b00001111001_0_010010011001010100111000100101010101110101011000010_0)
      = .ok (.v8InvalidS1 0x79 0 0x24ca9c4aaeac2) := by decide

/-- V8.INVALID.S2: ranges 63:1 and the type bits. -/
theorem test_decode_v8InvalidS2 :
    decodeDesc (v8 .S2 1) (.d64
        0b101111010000010101100001111001100100001000111000111000011010000_0)
      = .ok (.v8InvalidS2 0x5e82b0f3211c70d0) := by decide

/-- V8.RESERVED: ranges 63:2 and the type bits. -/
theorem test_decode_v8Reserved :
    decodeDesc (v8 .S1 3) (.d64
        0b01100101110111001001111101010000111111011000111010111110000100_01)
      = .ok (.v8Reserved 0x197727d43f63af84) := by decide

/-- V9.TABLE.S1: ranges 127 126:125 124:121 120:119 118:115 114 113 112 111 110:109 108:101 100:91
90:56 55:12 11 10 9:7 6 5:2 1 and the type bits. -/
theorem test_decode_v9TableS1 :
    decodeDesc (v9 .S1 0) (.d128
        0b1_10_0010_01_1000_1_1_0_1_01_01001000_1011010100_11101101010010100001101111101001110_10101110110001011011110110000110110101000001_1_0_010_0_0011_0_1)
      = .ok (.v9TableS1 ⟨1, 2, 2, 1, 8, 1, 1, 0, 1, 1, 0x48, 0x2d4, 0x76a50df4e, 0xaec5bd86d41, 1,
        0, 2, 0, 3, 0⟩) := by decide

/-- V9.TABLE.S2: ranges 127 126:125 124:121 120:119 118:115 114 113:112 111 110:109 108:101 100:91
90:56 55:12 11 10 9:7 6 5:2 1 and the type bits. -/
theorem test_decode_v9TableS2 :
    decodeDesc (v9 .S2 0) (.d128
        0b0_11_0100_01_1000_0_10_1_01_00100110_0110101110_01010001000110110101111010000000010_10010000111110011100000111001010101011111000_1_0_110_0_1000_1_1)
      = .ok (.v9TableS2 ⟨0, 3, 4, 1, 8, 0, 2, 1, 1, 0x26, 0x1ae, 0x288daf402, 0x90f9c1caaf8, 1, 0,
        6, 0, 8, 1⟩) := by decide

/-- V9.BLOCKPAGE.S1: ranges 127 126:125 124:121 120:119 118:115 114 113 112 111 110:109 108:101
100:91 90:56 55:12 11 10 9:8 7 6 5 4:2 1 and the type bits. -/
theorem test_decode_v9BlockPageS1 :
    decodeDesc (v9 .S1 2) (.d128
        0b1_10_0111_01_1000_1_0_0_0_01_01110001_0010100111_01000011100001001000100001011111010_00001101011110011001110010010100001100001010_0_0_11_0_0_1_101_0_1)
      = .ok (.v9BlockPageS1 ⟨1, 2, 7, 1, 8, 1, 0, 0, 0, 1, 0x71, 0xa7, 0x21c2442fa, 0xd799c9430a, 0,
        0, 3, 0, 0, 1, 5, 0⟩) := by decide

/-- V9.BLOCKPAGE.S2: ranges 127 126:125 124:121 120:119 118:115 114 113:112 111 110:109 108:101
100:91 90:56 55:12 11 10 9:8 7 6 5 4:2 1 and the type bits. -/
theorem test_decode_v9BlockPageS2 :
    decodeDesc (v9 .S2 2) (.d128
        0b0_01_1010_10_0011_1_10_1_01_00100000_0001110111_01111011001010100111110111000100111_11111010010111111110001110111111101011011011_1_1_10_1_0_0_001_1_1)
      = .ok (.v9BlockPageS2 ⟨0, 1, 0xa, 2, 3, 1, 2, 1, 1, 0x20, 0x77, 0x3d953ee27, 0xfa5fe3bfadb, 1,
        1, 2, 1, 0, 0, 1, 1⟩) := by decide

/-- V9.INVALID: ranges 127:115 114 113:1 0. -/
theorem test_decode_v9Invalid :
    decodeDesc (v9 .S1 3) (.d128
        0b1011110110001_1_00110001010101000101100010010101010100001111101101101010000101111110111011011101101111010100001101111011110100011_1)
      = .ok (.v9Invalid 0x17b1 1 0x62a8b12aa1f6d42fddbb7a86f7a3 1) := by decide

/-! ### WellFormed refuses: one ill-formed term for each check -/

/-- An instruction that every check but one accepts: V8.INVALID.S1 and S2 have no check of their own
but the system and the stage. -/
def inv1 : Instr := .v8InvalidS1 0 0 0
def inv2 : Instr := .v8InvalidS2 0

theorem test_wf_accepts : inv1.wf (v8 .S1 1) = true ∧ inv2.wf (v8 .S2 1) = true := by decide
theorem test_wf_level_below : inv1.wf (v8 .S1 (-3)) = false ∧ inv1.wf (v8 .S1 (-2)) = true := by decide
theorem test_wf_level_above : inv1.wf (v8 .S1 4) = false ∧ inv1.wf (v8 .S1 3) = true := by decide
theorem test_wf_overlay : inv1.wf { v8 .S1 1 with s1_overlay := true } = false := by decide
theorem test_wf_aie : inv1.wf { v8 .S1 1 with aie_en := true } = false := by decide
theorem test_wf_pbha59 :
    inv1.wf { v8 .S1 1 with pbha_en := ⟨true, false, false, false⟩ } = false := by decide
theorem test_wf_pbha60 :
    inv1.wf { v8 .S1 1 with pbha_en := ⟨false, true, false, false⟩ } = false := by decide
theorem test_wf_pbha61 :
    inv1.wf { v8 .S1 1 with pbha_en := ⟨false, false, true, false⟩ } = false := by decide
theorem test_wf_pbha62 :
    inv1.wf { v8 .S1 1 with pbha_en := ⟨false, false, false, true⟩ } = false := by decide
theorem test_wf_nv : inv1.wf { v8 .S1 1 with NV_NV1 := true, regime := .EL2 } = false
    ∧ inv1.wf { v8 .S1 1 with NV_NV1 := true } = true := by decide
theorem test_wf_root : inv1.wf { v8 .S1 1 with secstate := .Root } = false := by decide
theorem test_wf_root_stage2 :
    inv2.wf { v8 .S2 1 with secstate := .Root, regime := .EL3 } = false := by decide
theorem test_wf_fng : inv1.wf { v8 .S1 1 with FNG := true, two_priv := false } = false := by decide
theorem test_wf_stage : inv1.wf (v8 .S2 1) = false ∧ inv2.wf (v8 .S1 1) = false := by decide
theorem test_wf_system : inv1.wf (v9 .S1 1) = false ∧ inv2.wf (v9 .S2 1) = false := by decide

def tab1 : V8TableS1Ops := .ofBits 3
def tab2 : V8TableS2Ops := .ofBits 3
def leaf1 : V8LeafS1Ops := .ofBits 0
def leaf2 : V8LeafS2Ops := .ofBits 0
/-- SKL = 0. -/
def tab9S1 : V9TableS1Ops := .ofBits 1
def tab9S2 : V9TableS2Ops := .ofBits 1
def leaf9S1 : V9LeafS1Ops := .ofBits 1
def leaf9S2 : V9LeafS2Ops := .ofBits 1

theorem test_wf_table_level :
    (Instr.v8TableS1 tab1).wf (v8 .S1 3) = false ∧ (Instr.v8TableS2 tab2).wf (v8 .S2 3) = false := by
  decide
theorem test_wf_page_level :
    (Instr.v8PageS1 leaf1 0).wf (v8 .S1 2) = false ∧ (Instr.v8PageS2 leaf2 0).wf (v8 .S2 2) = false := by
  decide
theorem test_wf_block_level :
    (Instr.v8BlockS1 leaf1 0 0 0).wf (v8 .S1 3) = false
      ∧ (Instr.v8BlockS2 leaf2 0 0 0).wf (v8 .S2 3) = false := by decide
/-- R152, each place of its list. -/
theorem test_wf_block_format :
    (Instr.v8BlockS1 leaf1 0 0 0).wf (v8 .S1 (-2)) = false
      ∧ (Instr.v8BlockS1 leaf1 0 0 0).wf (v8 .S1 (-1)) = false
      ∧ (Instr.v8BlockS1 leaf1 0 0 0).wf (v8 .S1 0) = false
      ∧ (Instr.v8BlockS1 leaf1 0 0 0).wf { v8 .S1 0 with granule := .G16K, DS := true } = false
      ∧ (Instr.v8BlockS1 leaf1 0 0 0).wf { v8 .S1 1 with granule := .G16K } = false
      ∧ (Instr.v8BlockS2 leaf2 0 0 0).wf { v8 .S2 0 with granule := .G64K, FEAT_LPA := true } = false
      ∧ (Instr.v8BlockS2 leaf2 0 0 0).wf { v8 .S2 1 with granule := .G64K } = false := by decide
theorem test_wf_reserved :
    (Instr.v8Reserved 0).wf (v8 .S1 2) = false ∧ (Instr.v8Reserved 0).wf (v9 .S1 3) = false := by
  decide
theorem test_wf_table9 :
    (Instr.v9TableS1 tab9S1).wf (v9 .S1 3) = false ∧ (Instr.v9TableS2 tab9S2).wf (v9 .S2 3) = false
      ∧ (Instr.v9TableS1 tab9S1).wf { v9 .S1 2 with table_permitted := .const (.const (.const false)) }
        = false := by decide
theorem test_wf_leaf9 :
    (Instr.v9BlockPageS1 leaf9S1).wf (v9 .S1 2) = false
      ∧ (Instr.v9BlockPageS2 leaf9S2).wf (v9 .S2 2) = false
      ∧ (Instr.v9BlockPageS1 leaf9S1).wf
        { v9 .S1 3 with block_permitted := .const (.const (.const false)) } = false := by decide
theorem test_wf_invalid9 :
    (Instr.v9Invalid 0 0 0 1).wf (v9 .S1 2) = false ∧ (Instr.v9Invalid 0 0 0 1).wf (v9 .S1 3) = false
      ∧ (Instr.v9Invalid 0 0 0 0).wf (v8 .S1 2) = false := by decide

/-! ### Witnesses: every constructor is well formed somewhere, and completes there -/

/-- The answer is a next state. -/
def completes (o : Outcome) : Bool :=
  match o with
  | .next _ => true
  | _ => false

theorem witness_v8TableS1 : (Instr.v8TableS1 tab1).wf (v8 .S1 2) = true
    ∧ completes (exec (.v8TableS1 tab1) (st (v8 .S1 2))) = true := by decide
theorem witness_v8TableS2 : (Instr.v8TableS2 tab2).wf (v8 .S2 2) = true
    ∧ completes (exec (.v8TableS2 tab2) (st (v8 .S2 2))) = true := by decide
theorem witness_v8BlockS1 : (Instr.v8BlockS1 leaf1 0 0 0).wf (v8 .S1 1) = true
    ∧ completes (exec (.v8BlockS1 leaf1 0 0 0) (st (v8 .S1 1))) = true := by decide
theorem witness_v8PageS1 : (Instr.v8PageS1 leaf1 0).wf (v8 .S1 3) = true
    ∧ completes (exec (.v8PageS1 leaf1 0) (st (v8 .S1 3))) = true := by decide
theorem witness_v8BlockS2 : (Instr.v8BlockS2 leaf2 0 0 0).wf (v8 .S2 2) = true
    ∧ completes (exec (.v8BlockS2 leaf2 0 0 0) (st (v8 .S2 2))) = true := by decide
theorem witness_v8PageS2 : (Instr.v8PageS2 leaf2 0).wf (v8 .S2 3) = true
    ∧ completes (exec (.v8PageS2 leaf2 0) (st (v8 .S2 3))) = true := by decide
theorem witness_v8InvalidS1 : inv1.wf (v8 .S1 (-2)) = true
    ∧ completes (exec inv1 (st (v8 .S1 (-2)))) = true := by decide
theorem witness_v8InvalidS2 : inv2.wf (v8 .S2 3) = true
    ∧ completes (exec inv2 (st (v8 .S2 3))) = true := by decide
theorem witness_v8Reserved : (Instr.v8Reserved 0).wf (v8 .S2 3) = true
    ∧ completes (exec (.v8Reserved 0) (st (v8 .S2 3))) = true := by decide
theorem witness_v9TableS1 : (Instr.v9TableS1 tab9S1).wf (v9 .S1 2) = true
    ∧ completes (exec (.v9TableS1 tab9S1) (st (v9 .S1 2))) = true := by decide
theorem witness_v9TableS2 : (Instr.v9TableS2 tab9S2).wf (v9 .S2 (-2)) = true
    ∧ completes (exec (.v9TableS2 tab9S2) (st (v9 .S2 (-2)))) = true := by decide
theorem witness_v9BlockPageS1 : (Instr.v9BlockPageS1 leaf9S1).wf (v9 .S1 3) = true
    ∧ completes (exec (.v9BlockPageS1 leaf9S1) (st (v9 .S1 3))) = true := by decide
theorem witness_v9BlockPageS2 : (Instr.v9BlockPageS2 leaf9S2).wf (v9 .S2 3) = true
    ∧ completes (exec (.v9BlockPageS2 leaf9S2) (st (v9 .S2 3))) = true := by decide
/-- Case (a) and, at level 3 with SKL = 1, case (d) of R260. -/
theorem witness_v9Invalid : (Instr.v9Invalid 0 0 0 0).wf (v9 .S1 0) = true
    ∧ (Instr.v9Invalid 0 0 (1#113 <<< 108) 1).wf (v9 .S1 3) = true
    ∧ completes (exec (.v9Invalid 0 0 (1#113 <<< 108) 1) (st (v9 .S1 3))) = true := by decide

/-! ### Witnesses: each obligation's hypotheses are met together -/

/-- ExecCompletesExactlyWhereTheFormatApplies, its second clause; the first is the 14 above. -/
theorem witness_format_does_not_apply :
    (Instr.v8TableS1 tab1).wf (st (v8 .S1 3)).ctx = false
      ∧ exec (.v8TableS1 tab1) (st (v8 .S1 3)) = .refused .formatDoesNotApply :=
  ⟨by decide, rfl⟩

/-- DecodedIsWellFormedAndEncodesBack. -/
theorem witness_decoded :
    decode (v8 .S2 2) [3, 0, 0, 0, 0, 0, 0, 0] = .ok (.v8TableS2 tab2) := by decide

/-- V8TypeDetermination: its five clauses, at the levels where they meet. -/
theorem witness_v8_types :
    (v8 .S1 3).wf = true ∧ (v8 .S1 2).wf = true ∧ (v8 .S2 (-2)).wf = true
      ∧ (v8 .S1 3).system = .VMSAv8_64
      ∧ (2#64).getLsbD 0 = false
      ∧ ((1#64).getLsbD 0 = true ∧ (1#64).getLsbD 1 = false ∧ (v8 .S1 3).level = 3)
      ∧ ((3#64).getLsbD 0 = true ∧ (3#64).getLsbD 1 = true ∧ (v8 .S1 3).level = 3)
      ∧ (v8 .S1 2).level < 3 ∧ (v8 .S2 (-2)).level < 3 := by decide

/-- The type table of spec/95_test_vectors.md section 3.1, at the levels where the outcome changes. -/
theorem test_v8_classes :
    classifyV8 (v8 .S1 3) 0 = .Invalid ∧ classifyV8 (v8 .S1 2) 2 = .Invalid
      ∧ classifyV8 (v8 .S1 3) 1 = .ReservedInvalid ∧ classifyV8 (v8 .S1 2) 1 = .Block
      ∧ classifyV8 (v8 .S1 3) 3 = .Page ∧ classifyV8 (v8 .S1 (-2)) 3 = .Table := by decide

/-- The type table of section 3.2 around the sum 3. -/
theorem test_v9_classes :
    classifyV9Skl (v9 .S1 (-2)) true 3 = .Table ∧ classifyV9Skl (v9 .S1 0) true 2 = .Table
      ∧ classifyV9Skl (v9 .S1 0) true 3 = .BlockOrPage ∧ classifyV9Skl (v9 .S1 3) true 0 = .BlockOrPage
      ∧ classifyV9Skl (v9 .S1 1) true 3 = .Invalid .SumAbove3
      ∧ classifyV9Skl (v9 .S1 0) false 0 = .Invalid .BitZero := by decide

/-- V9TypeDetermination. -/
theorem witness_v9_types :
    (v9 .S1 (-2)).wf = true ∧ (v9 .S2 3).wf = true ∧ (v9 .S2 3).system = .VMSAv9_128 := by decide

/-- V8BlockWithoutFormatIsRefused, at both stages and for a place of each granule. -/
theorem witness_no_block_format :
    V8At (st (v8 .S1 0)) .S1 ∧ noBlockRow (v8 .S1 0) ∧ V8At (st (v8 .S2 (-1))) .S2
      ∧ noBlockRow (v8 .S2 (-1)) ∧ noBlockRow { v8 .S1 1 with granule := .G16K }
      ∧ noBlockRow { v8 .S1 1 with granule := .G64K } ∧ (st (v8 .S1 0)).ctx.level < 3
      ∧ (1#64).extractLsb' 0 2 = 0b01#2 := by
  constructorm* _ ∧ _ <;>
    first | decide | (unfold V8At; decide) | (unfold noBlockRow; decide)

/-- ContextsOutsideTheSpecAreRefused: each cause, and both ends of the level range. -/
theorem witness_context_causes :
    (v8 .S1 (-3)).check = some .levelOutOfRange ∧ (v8 .S1 4).check = some .levelOutOfRange
      ∧ (v8 .S1 (-2)).check = none ∧ (v8 .S1 3).check = none
      ∧ { v8 .S1 1 with s1_overlay := true }.check = some .overlayWithoutS1POE
      ∧ { v8 .S1 1 with aie_en := true }.check = some .aieWithoutFeature
      ∧ { v8 .S1 1 with pbha_en := ⟨false, false, true, false⟩ }.check = some .pbhaWithoutHPDS2
      ∧ { v8 .S1 1 with NV_NV1 := true, regime := .EL2_0 }.check = some .nvOutsideEL1
      ∧ { v8 .S2 1 with NV_NV1 := true }.check = none
      ∧ { v8 .S1 1 with secstate := .Root }.check = some .rootOutsideEL3
      ∧ { v8 .S2 1 with secstate := .Root, regime := .EL3 }.check = some .stage2InRoot
      ∧ { v8 .S1 1 with FNG := true, two_priv := false }.check = some .fngSinglePrivilege
      ∧ (v8 .S1 4).system.bytes ≤ [0, 0, 0, 0, 0, 0, 0, (0 : Byte)].length := by decide

/-- A state with a placed descriptor. -/
def placed (c : Ctx) (w : Nat) : State := (st c).withFetchWord (8 * c.system.bytes) w

/-- StepReadsOnlyTheDescriptor: memories that differ just past the descriptor, for both lengths. -/
theorem witness_reads_only :
    (∀ b, 0 ≤ b → b < 8 →
      (placed (v8 .S1 2) 3).mem.read b = ((placed (v8 .S1 2) 3).mem.write 8 7).read b)
      ∧ (∀ b, 0 ≤ b → b < 16 →
        (placed (v9 .S1 2) 1).mem.read b = ((placed (v9 .S1 2) 1).mem.write 16 7).read b)
      ∧ (placed (v8 .S1 2) 3).desc_addr.toNat = 0 ∧ (placed (v9 .S1 2) 1).desc_addr.toNat = 0
      ∧ (placed (v8 .S1 2) 3).mem ≠ (placed (v8 .S1 2) 3).mem.write 8 7 := by decide

/-- ByteOrderOfTheDescriptor: both lengths, both byte orders (the bytes of the spec's line). -/
theorem witness_byte_order :
    (∀ k, k < 8 → (placed (v8 .S1 3) 0x0060000080000F47).mem.read (0 + k)
        = some ((0x0060000080000F47#64).extractLsb' (8 * k) 8))
      ∧ (∀ k, k < 8 →
        (placed { v8 .S1 3 with big_endian_walk := true } 0x0060000080000F47).mem.read (0 + k)
        = some ((0x0060000080000F47#64).extractLsb' (8 * (7 - k)) 8))
      ∧ (∀ k, k < 16 →
        (placed { v9 .S1 3 with big_endian_walk := true }
          0x00080000000000000000000080000F05).mem.read (0 + k)
        = some ((0x00080000000000000000000080000F05#128).extractLsb' (8 * (15 - k)) 8)) := by decide

/-- StepRunsTheDecodedInstruction. -/
theorem witness_step_runs :
    (Instr.v8TableS1 tab1).wf (placed (v8 .S1 2) 3).ctx = true
      ∧ holds (placed (v8 .S1 2) 3) (encode false (.v8TableS1 tab1)) := by
  constructorm* _ ∧ _ <;>
    first | decide | (unfold holds; decide)

/-- UnreadableDescriptorFaults: nothing written (k = 0), and a descriptor across the top of the address
space (k = 1). -/
theorem witness_unreadable :
    (0 < (st (v8 .S1 2)).ctx.system.bytes ∧ (st (v8 .S1 2)).mem.read 0 = none)
      ∧ (let s : State := { st (v8 .S1 2) with
            desc_addr := 0xFFFFFFFFFFFFFF, mem := [(0xFFFFFFFFFFFFFF, 3)] }
        1 < s.ctx.system.bytes ∧ (∀ j, j < 1 → (s.mem.read (s.desc_addr.toNat + j)).isSome = true
          ∧ s.desc_addr.toNat + j < 2 ^ 56) ∧ 2 ^ 56 ≤ s.desc_addr.toNat + 1) := by decide

/-- V8TableStage1Decode and V8TableStage2Decode, at both ends of the level range. -/
theorem witness_v8_table :
    V8At (st (v8 .S1 2)) .S1 ∧ V8At (st (v8 .S1 (-2))) .S1 ∧ V8At (st (v8 .S2 2)) .S2
      ∧ (v8 .S1 2).level < 3 ∧ (v8 .S1 (-2)).level < 3 ∧ (3#64).extractLsb' 0 2 = 0b11#2 := by
  constructorm* _ ∧ _ <;>
    first | decide | (unfold V8At; decide)

/-- The stage 1 leaf statements: a Page and a Block. -/
theorem witness_v8_leaf_s1 :
    V8LeafAt (st (v8 .S1 3)) .S1 3 ∧ V8LeafAt (st (v8 .S1 2)) .S1 1 := by
  unfold V8LeafAt V8At blockRow
  exact ⟨⟨by decide, by decide, Or.inl (by decide)⟩, ⟨by decide, by decide, Or.inr ⟨by decide, by decide, 21, by decide⟩⟩⟩

/-- The stage 2 leaf statements: a Page and a Block. -/
theorem witness_v8_leaf_s2 :
    V8LeafAt (st (v8 .S2 3)) .S2 3 ∧ V8LeafAt (st (v8 .S2 1)) .S2 1 := by
  unfold V8LeafAt V8At blockRow
  exact ⟨⟨by decide, by decide, Or.inl (by decide)⟩, ⟨by decide, by decide, Or.inr ⟨by decide, by decide, 30, by decide⟩⟩⟩

/-- The bit classes of the leaf statements, where they change. -/
theorem witness_v8_leaf_classes :
    classAt (rowsV8PageS1 (v8 .S1 3) 0) 53 = some (.field .PXN 0 0)
      ∧ classAt (rowsV8PageS1 { v8 .S1 3 with NV_NV1 := true } 0) 53 = some .res0
      ∧ classAt (rowsV8PageS1 { v8 .S1 3 with two_priv := false } 0) 6 = some .res1
      ∧ classAt (rowsV8PageS1 { v8 .S1 3 with two_priv := false, NV_NV1 := true } 0) 6 = some .res1
      ∧ classAt (rowsV8PageS1 { v8 .S1 3 with NV_NV1 := true } 0) 6 = some (.field .AP 1 1)
      ∧ classAt (rowsV8PageS2 (v8 .S2 3) 0) 53 = some .res0
      ∧ classAt (rowsV8PageS2 { v8 .S2 3 with FEAT_XNX := true } 0) 53 = some (.field .XN 0 0)
      ∧ classAt (rowsV8PageS2 { v8 .S2 3 with FWB := true } 0) 5 = some .res0
      ∧ classAt (rowsV8PageS2 { v8 .S2 3 with DS := true } 0) 9 = some (.field .OAB 51 50) := by decide

/-- V8PageOutputAddress, each granule. -/
theorem witness_v8_page :
    V8At (st (v8 .S1 3)) .S1 ∧ V8At (st { v8 .S2 3 with granule := .G16K, DS := true }) .S2
      ∧ V8At (st { v8 .S1 3 with granule := .G64K, FEAT_LPA := true }) .S1 ∧ (v8 .S1 3).level = 3
      ∧ (3#64).extractLsb' 0 2 = 0b11#2 := by
  constructorm* _ ∧ _ <;>
    first | decide | (unfold V8At; decide)

/-- V8BlockOutputAddress, each row of R151. -/
theorem witness_v8_block :
    (V8At (st { v8 .S1 0 with DS := true }) .S1 ∧ blockRow { v8 .S1 0 with DS := true } 39)
      ∧ (V8At (st (v8 .S1 1)) .S1 ∧ blockRow (v8 .S1 1) 30)
      ∧ (V8At (st (v8 .S2 2)) .S2 ∧ blockRow (v8 .S2 2) 21)
      ∧ (V8At (st { v8 .S1 1 with granule := .G16K, DS := true }) .S1
        ∧ blockRow { v8 .S1 1 with granule := .G16K, DS := true } 36)
      ∧ (V8At (st { v8 .S1 2 with granule := .G16K }) .S1
        ∧ blockRow { v8 .S1 2 with granule := .G16K } 25)
      ∧ (V8At (st { v8 .S1 1 with granule := .G64K, FEAT_LPA := true }) .S1
        ∧ blockRow { v8 .S1 1 with granule := .G64K, FEAT_LPA := true } 42)
      ∧ (V8At (st { v8 .S2 2 with granule := .G64K }) .S2
        ∧ blockRow { v8 .S2 2 with granule := .G64K } 29)
      ∧ (1#64).extractLsb' 0 2 = 0b01#2 := by
  constructorm* _ ∧ _ <;>
    first | decide | (unfold V8At; decide) | (unfold blockRow; decide)

/-- The bit classes of V8BlockOutputAddress and V8PageOutputAddress at the ends of their ranges. -/
theorem witness_v8_address_classes :
    classAt (rowsV8BlockS1 (v8 .S1 2) 0 21) 17 = some .res0
      ∧ classAt (rowsV8BlockS1 (v8 .S1 2) 0 21) 20 = some .res0
      ∧ classAt (rowsV8BlockS1 (v8 .S1 2) 0 21) 21 = some (.field .OAB 47 21)
      ∧ classAt (rowsV8BlockS1 (v8 .S1 2) 0 21) 16 = some .res0
      ∧ classAt (rowsV8BlockS1 (v8 .S1 2) 0 21) 15 = some .res0
      ∧ classAt (rowsV8PageS1 { v8 .S1 3 with granule := .G16K } 0) 13 = some .res0
      ∧ classAt (rowsV8PageS1 { v8 .S1 3 with granule := .G16K } 0) 14 = some (.field .OAB 47 14)
      ∧ classAt (rowsV8PageS1 { v8 .S1 3 with granule := .G64K } 0) 15 = some .res0
      ∧ classAt (rowsV8PageS1 (v8 .S1 3) 0) 49 = some .res0 := by decide

/-- V8InvalidStage1Decode, V8InvalidStage2Decode and V8ReservedDecode. -/
theorem witness_v8_invalid :
    V8At (st (v8 .S1 3)) .S1 ∧ V8At (st (v8 .S2 (-2))) .S2 ∧ (2#64).getLsbD 0 = false
      ∧ (v8 .S1 3).level = 3 ∧ (1#64).extractLsb' 0 2 = 0b01#2 := by
  constructorm* _ ∧ _ <;>
    first | decide | (unfold V8At; decide)

/-- V9TableStage1Decode and V9TableStage2Decode: sum 2, with and without a skipped level. -/
theorem witness_v9_table :
    (V9At (st (v9 .S1 2)) .S1 ∧ V9At (st (v9 .S2 2)) .S2
        ∧ (v9 .S1 2).level + (sklOf 1).toNat < 3
        ∧ (v9 .S1 2).table_permitted.permits .G4K 2 (sklOf 1) = true)
      ∧ (V9At (st (v9 .S1 (-1))) .S1
        ∧ (v9 .S1 (-1)).level + (sklOf 0x00006000000000000000000000000001).toNat < 3
        ∧ (v9 .S1 (-1)).table_permitted.permits .G4K (-1)
          (sklOf 0x00006000000000000000000000000001) = true)
      ∧ (1#128).getLsbD 0 = true
      ∧ (0x00006000000000000000000000000001#128).getLsbD 0 = true := by
  constructorm* _ ∧ _ <;>
    first | decide | (unfold V9At; decide)

/-- V9LeafStage1Decode, V9LeafStage2Decode and V9OutputAddress: a Page, a Block whose size parameter is
given and one without. -/
theorem witness_v9_leaf :
    (V9At (st (v9 .S1 3)) .S1 ∧ V9At (st (v9 .S2 3)) .S2 ∧ (v9 .S1 3).level + (sklOf 1).toNat = 3
        ∧ (v9 .S1 3).block_permitted.permits .G4K 3 (sklOf 1) = true)
      ∧ (V9At (st (v9 .S1 0)) .S1
        ∧ (v9 .S1 0).level + (sklOf 0x00006000000000000000000000000001).toNat = 3
        ∧ (v9 .S1 0).block_permitted.permits .G4K 0 (sklOf 0x00006000000000000000000000000001) = true
        ∧ (v9 .S1 0).v9_block_shift.shift .G4K 0 = none)
      ∧ (V9At (st { v9 .S2 0 with v9_block_shift := .const (.const (some 39)) }) .S2
        ∧ { v9 .S2 0 with v9_block_shift := .const (.const (some 39)) }.v9_block_shift.shift .G4K 0
          = some 39)
      ∧ (1#128).getLsbD 0 = true
      ∧ (0x00006000000000000000000000000001#128).getLsbD 0 = true := by
  constructorm* _ ∧ _ <;>
    first | decide | (unfold V9At; decide)

/-- V9InvalidDecode: each of its four cases, at both stages. -/
theorem witness_v9_invalid :
    (V9At (st (v9 .S1 0)) .S1 ∧ (0#128).getLsbD 0 = false)
      ∧ (V9At (st { v9 .S1 2 with table_permitted := .const (.const (.const false)) }) .S1
        ∧ (2 : Int) + (sklOf 1).toNat < 3
        ∧ { v9 .S1 2 with table_permitted := .const (.const (.const false)) }.table_permitted.permits
          .G4K 2 (sklOf 1) = false)
      ∧ (V9At (st { v9 .S2 3 with block_permitted := .const (.const (.const false)) }) .S2
        ∧ (3 : Int) + (sklOf 1).toNat = 3
        ∧ { v9 .S2 3 with block_permitted := .const (.const (.const false)) }.block_permitted.permits
          .G4K 3 (sklOf 1) = false)
      ∧ (V9At (st (v9 .S1 3)) .S1
        ∧ (3 : Int) < 3 + (sklOf 0x00002000000000000000000000000001).toNat) := by
  constructorm* _ ∧ _ <;>
    first | decide | (unfold V9At; decide)

/-- A stage 1 Table whose next-level address is an IPA. -/
def ipaCtx : Ctx := { v8 .S1 2 with el2_enabled := true }

/-- StepWritesOnlyTheOutcome, StepKeepsTheInvariant: a step from a state that meets the invariant. -/
theorem witness_step :
    (placed ipaCtx 0x80001003).inv = true ∧ ∃ t, step (placed ipaCtx 0x80001003) = .next t :=
  ⟨by decide, _, rfl⟩

/-- WhatStopsAStep: each of its stops happens. -/
theorem witness_stops :
    step (st (v8 .S1 2)) = .fault (.memoryNotWritten 0)
      ∧ step { st (v8 .S1 2) with desc_addr := 0xFFFFFFFFFFFFFF, mem := [(0xFFFFFFFFFFFFFF, 3)] }
        = .fault (.addressBeyondSpace 0x100000000000000)
      ∧ step (placed (v8 .S1 4) 3) = .refused (.context .levelOutOfRange)
      ∧ step (placed (v8 .S1 0) 1) = .refused .noBlockFormat :=
  ⟨rfl, rfl, rfl, rfl⟩

/-- NextTableAddressKind, NextTableLevelWithoutSkip, NextTableAddressIsGranuleAligned: an IPA. -/
theorem witness_next_table_ipa :
    ∃ t dec, exec (.v8TableS1 (.ofBits 0x80001003)) (st ipaCtx) = .next t ∧ t.output = some dec
      ∧ nextTable dec.result = some (0x80001000, .IPA, 3, 0) :=
  ⟨_, _, rfl, rfl, by decide⟩

/-- The same at stage 2, always a PA, at the lowest level. -/
theorem witness_next_table_pa :
    ∃ t dec, exec (.v9TableS2 (.ofBits 0x80001001)) (st { v9 .S2 (-2) with el2_enabled := true }) = .next t
      ∧ t.output = some dec ∧ nextTable dec.result = some (0x80001000, .PA, -1, 0) :=
  ⟨_, _, rfl, rfl, by decide⟩

/-- FieldTablesAgreeWithDecodedFields, FieldTablesTileTheDescriptor: a row of APTable under
{NV, NV1} = {1, 1}. -/
theorem witness_field_table :
    ∃ t dec, exec (.v8TableS1 (.ofBits 0x7000000080001003))
        (st { v8 .S1 1 with hier_perm := true, NV_NV1 := true }) = .next t
      ∧ t.output = some dec ∧ ∃ r ∈ dec.rows, named r.cls = some (.APTable, 1, 0) :=
  ⟨_, _, rfl, rfl, ⟨62, 61, .field .APTable 1 0⟩, by decide, by decide⟩

/-- EveryDecodedFieldBitHasARow: a bit that a row holds, a zero address bit, and the constant UXN. -/
theorem witness_field_bits :
    ∃ t dec, exec (.v8PageS1 (.ofBits 0x0040000080000743) 0x80000) (st { v8 .S1 3 with NV_NV1 := true })
        = .next t
      ∧ t.output = some dec ∧ dec.result.fieldBit .PXN 0 = some true
      ∧ dec.result.fieldBit .OAB 51 = some false ∧ dec.result.fieldBit .UXN 0 = some false :=
  ⟨_, _, rfl, rfl, by decide, by decide, by decide⟩

/-- IgnoredBitsHaveNoEffect: two descriptors that differ in the IGNORED bit [51]. -/
theorem witness_ignored :
    ∃ t dec, outcomeOf (st (v8 .S1 2)) (.d64 0x80001003) = .next t ∧ t.output = some dec
      ∧ agreeOn notIgnored dec.rows (.d64 0x80001003) (.d64 0x0008000080001003)
      ∧ Desc.d64 0x80001003 ≠ .d64 0x0008000080001003
      ∧ (Desc.d64 0x80001003).isOf .VMSAv8_64 = true :=
  ⟨_, _, rfl, rfl, by unfold agreeOn; decide, by decide, by decide⟩

/-- ReservedBitsHaveNoEffectOnFields: two descriptors that differ in the RES0 bit [50]. -/
theorem witness_reserved :
    ∃ t dec, outcomeOf (st (v8 .S1 2)) (.d64 0x80001003) = .next t ∧ t.output = some dec
      ∧ agreeOn isRead dec.rows (.d64 0x80001003) (.d64 0x0004000080001003)
      ∧ Desc.d64 0x80001003 ≠ .d64 0x0004000080001003 :=
  ⟨_, _, rfl, rfl, by unfold agreeOn; decide, by decide⟩

/-- V9FormatsReadNoV8Control. -/
theorem witness_v8_controls :
    (placed (v9 .S1 2) 1).ctx.system = .VMSAv9_128
      ∧ (withV8Controls (v9 .S1 2) true true true true true true true true true true true true
        ⟨false, false, false, false⟩).wf = true
      ∧ ∃ t, step (placed (v9 .S1 2) 1) = .next t :=
  ⟨by decide, by decide, _, rfl⟩

/-- DSIsNotReadWithThe64KBGranule. -/
theorem witness_ds :
    { v8 .S1 2 with granule := .G64K }.granule = .G64K
      ∧ ∃ t, step (placed { v8 .S1 2 with granule := .G64K } 3) = .next t :=
  ⟨by decide, _, rfl⟩

/-- NVIsReadOnlyInEL1Stage1: another regime at stage 1, and stage 2 of the EL1&0 regime. -/
theorem witness_nv :
    (¬ ((v8 .S2 2).regime = .EL1_0 ∧ (v8 .S2 2).stage = .S1)
        ∧ ∃ t, step (placed (v8 .S2 2) 3) = .next t)
      ∧ (¬ ({ v8 .S1 2 with regime := .EL2 }.regime = .EL1_0 ∧ (v8 .S1 2).stage = .S1)
        ∧ ∃ t, step (placed { v8 .S1 2 with regime := .EL2 } 3) = .next t) :=
  ⟨⟨by decide, _, rfl⟩, by decide, _, rfl⟩

end Sys2Proof.Tests
end

section
/-! PROOFS. Decoding what the encoder writes: the type that the low bits of a descriptor give (R74, R76),
and the format that a well-formed instruction's descriptor decodes to. -/

namespace Sys2Proof

open Sys2Proof.Machine

variable {c : Ctx}

/-! ### The type of a descriptor from its low bits -/

theorem getLsbD_zero_of_low {w : Nat} {d : BitVec w} {v : Bit} (h : d.extractLsb' 0 1 = v) :
    d.getLsbD 0 = v.getLsbD 0 := by
  simp [← h]

theorem getLsbD_of_type {d : Desc64} {ty : BitVec 2} (h : d.extractLsb' 0 2 = ty) :
    d.getLsbD 0 = ty.getLsbD 0 ∧ d.getLsbD 1 = ty.getLsbD 1 := by
  simp [← h]

theorem classifyV8_invalid {d : Desc64} (h : d.extractLsb' 0 1 = 0#1) : classifyV8 c d = .Invalid := by
  rw [classifyV8, getLsbD_zero_of_low h]
  rfl

theorem classifyV8_type_11 {d : Desc64} (h : d.extractLsb' 0 2 = 0b11#2) :
    classifyV8 c d = if c.level = 3 then .Page else .Table := by
  obtain ⟨h0, h1⟩ := getLsbD_of_type h
  rw [classifyV8, h0, h1]
  rfl

theorem classifyV8_type_01 {d : Desc64} (h : d.extractLsb' 0 2 = 0b01#2) :
    classifyV8 c d = if c.level = 3 then .ReservedInvalid else .Block := by
  obtain ⟨h0, h1⟩ := getLsbD_of_type h
  rw [classifyV8, h0, h1]
  rfl

theorem classifyV9_of_valid {d : Desc128} (h : d.extractLsb' 0 1 = 1#1) :
    classifyV9 c d = classifyV9Skl c true (d.extractLsb' 109 2) := by
  rw [classifyV9, getLsbD_zero_of_low h]
  rfl

theorem classifyV9_table {d : Desc128} (h : d.extractLsb' 0 1 = 1#1)
    (ht : c.v9TableHere (d.extractLsb' 109 2) = true) : classifyV9 c d = .Table := by
  rw [classifyV9_of_valid h]
  exact classifyV9Skl_table_iff.2 ⟨rfl, ht⟩

theorem classifyV9_leaf {d : Desc128} (h : d.extractLsb' 0 1 = 1#1)
    (hl : c.v9LeafHere (d.extractLsb' 109 2) = true) : classifyV9 c d = .BlockOrPage := by
  rw [classifyV9_of_valid h]
  exact classifyV9Skl_leaf_iff.2 ⟨rfl, hl⟩

/-- A descriptor with a cause of R261 is Invalid by that cause. -/
theorem classifyV9_of_cause {d : Desc128} {cause : InvalidCause}
    (h : v9InvalidCause c d = some cause) : classifyV9 c d = .Invalid cause := by
  unfold v9InvalidCause at h
  split at h
  · next hc => rw [hc, Option.some.inj h]
  · cases h
  · cases h

/-! ### The ranges of the Invalid and Reserved descriptors -/

theorem extract_high_append {v w : Nat} (x : BitVec v) (y : BitVec w) :
    (x ++ y).extractLsb' w v = x := by
  rw [BitVec.extractLsb'_append_eq_of_le (by omega), Nat.sub_self, BitVec.extractLsb'_eq_self]

/-- The ranges of a V8.INVALID.S1 descriptor (R180). -/
theorem v8InvalidS1_ranges (hi : BitVec 11) (p : Bit) (lo : BitVec 51) :
    (hi ++ p ++ lo ++ 0#1).extractLsb' 53 11 = hi ∧ (hi ++ p ++ lo ++ 0#1).extractLsb' 52 1 = p ∧
      (hi ++ p ++ lo ++ 0#1).extractLsb' 1 51 = lo := by
  refine ⟨?_, ?_, ?_⟩ <;>
    · simp (disch := omega) only [BitVec.extractLsb'_append_eq_of_le,
        BitVec.extractLsb'_append_eq_of_add_le]
      simp

/-! ### The decoder on the descriptor of an instruction -/

theorem decodeDesc_d64_of_wf (h : c.wf = true) (d : Desc64) : decodeDesc c (.d64 d) = decodeV8 c d := by
  simp [decodeDesc, (check_none_iff c).2 h]

theorem decodeDesc_d128_of_wf (h : c.wf = true) (d : Desc128) :
    decodeDesc c (.d128 d) = .ok (decodeV9 c d) := by
  simp [decodeDesc, (check_none_iff c).2 h]

/-- Outside the complement list of R152 a Block has a row of R151. -/
theorem exists_blockShiftV8 (hw : c.wf = true) (h3 : c.level < 3) (hb : c.noV8BlockFormat = false) :
    ∃ n, blockShiftV8 c = some n := by
  refine Option.ne_none_iff_exists'.1 fun hnone => ?_
  rw [blockShiftV8_eq_none_iff (c.wf_level hw).1 h3, hb] at hnone
  cases hnone

/-- A format applies only in an accepted context, and only under its own system (R46, R79). -/
theorem Instr.wf_ctx {i : Instr} (h : i.wf c = true) : c.wf = true ∧ i.desc.isOf c.system = true := by
  unfold Instr.wf at h
  rw [Bool.and_eq_true] at h
  refine ⟨h.1, ?_⟩
  cases i <;>
    · simp only [Ctx.isFor, Bool.and_eq_true, decide_eq_true_eq] at h
      simp [Instr.desc, Desc.isOf, h]

/-- The descriptor of a well-formed instruction decodes back to it, format by format. -/
theorem decodeDesc_desc {i : Instr} (h : i.wf c = true) : decodeDesc c i.desc = .ok i := by
  have hw := (Instr.wf_ctx h).1
  cases i with
    simp only [Instr.wf, Ctx.isFor, Bool.and_eq_true, Bool.or_eq_true, Bool.not_eq_true',
      decide_eq_true_eq] at h
  | v8TableS1 o =>
    obtain ⟨-, ⟨-, hs⟩, hl⟩ := h
    simp [Instr.desc, decodeDesc_d64_of_wf hw, decodeV8, classifyV8_type_11, hs, Int.ne_of_lt hl]
  | v8TableS2 o =>
    obtain ⟨-, ⟨-, hs⟩, hl⟩ := h
    simp [Instr.desc, decodeDesc_d64_of_wf hw, decodeV8, classifyV8_type_11, hs, Int.ne_of_lt hl]
  | v8BlockS1 a hi nt lo =>
    obtain ⟨-, ⟨⟨-, hs⟩, hl⟩, hb⟩ := h
    obtain ⟨n, hn⟩ := exists_blockShiftV8 hw hl hb
    simp [Instr.desc, decodeDesc_d64_of_wf hw, decodeV8, classifyV8_type_01, hs, Int.ne_of_lt hl, hn]
  | v8PageS1 a m =>
    obtain ⟨-, ⟨-, hs⟩, hl⟩ := h
    simp [Instr.desc, decodeDesc_d64_of_wf hw, decodeV8, classifyV8_type_11, hs, hl]
  | v8BlockS2 a hi nt lo =>
    obtain ⟨-, ⟨⟨-, hs⟩, hl⟩, hb⟩ := h
    obtain ⟨n, hn⟩ := exists_blockShiftV8 hw hl hb
    simp [Instr.desc, decodeDesc_d64_of_wf hw, decodeV8, classifyV8_type_01, hs, Int.ne_of_lt hl, hn]
  | v8PageS2 a m =>
    obtain ⟨-, ⟨-, hs⟩, hl⟩ := h
    simp [Instr.desc, decodeDesc_d64_of_wf hw, decodeV8, classifyV8_type_11, hs, hl]
  | v8InvalidS1 hi p lo =>
    obtain ⟨-, -, hs⟩ := h
    simp [Instr.desc, decodeDesc_d64_of_wf hw, decodeV8, classifyV8_invalid (extract_low_append _ _),
      hs, v8InvalidS1_ranges]
  | v8InvalidS2 hi =>
    obtain ⟨-, -, hs⟩ := h
    simp [Instr.desc, decodeDesc_d64_of_wf hw, decodeV8, classifyV8_invalid (extract_low_append _ _),
      hs, extract_high_append hi 0#1]
  | v8Reserved hi =>
    obtain ⟨-, -, hl⟩ := h
    simp [Instr.desc, decodeDesc_d64_of_wf hw, decodeV8, classifyV8_type_01 (extract_low_append _ _),
      hl, extract_high_append hi 1#2]
  | v9TableS1 o =>
    obtain ⟨-, ⟨-, hs⟩, ht⟩ := h
    simp [Instr.desc, decodeDesc_d128_of_wf hw, decodeV9, classifyV9_table, hs, ht]
  | v9TableS2 o =>
    obtain ⟨-, ⟨-, hs⟩, ht⟩ := h
    simp [Instr.desc, decodeDesc_d128_of_wf hw, decodeV9, classifyV9_table, hs, ht]
  | v9BlockPageS1 o =>
    obtain ⟨-, ⟨-, hs⟩, hl⟩ := h
    simp [Instr.desc, decodeDesc_d128_of_wf hw, decodeV9, classifyV9_leaf, hs, hl]
  | v9BlockPageS2 o =>
    obtain ⟨-, ⟨-, hs⟩, hl⟩ := h
    simp [Instr.desc, decodeDesc_d128_of_wf hw, decodeV9, classifyV9_leaf, hs, hl]
  | v9Invalid hi p lo v =>
    obtain ⟨-, -, hinv⟩ := h
    obtain ⟨cause, hc⟩ : ∃ cause, v9InvalidCause c (v9InvalidBits hi p lo v) = some cause :=
      Option.isSome_iff_exists.1 (v9InvalidCause_isSome.2 hinv)
    simp [Instr.desc, decodeDesc_d128_of_wf hw, decodeV9, classifyV9_of_cause hc]

/-- The decoder undoes the encoder on a well-formed instruction. -/
theorem decode_encode {i : Instr} (h : i.wf c = true) :
    decode c (encode c.big_endian_walk i) = .ok i := by
  obtain ⟨-, hof⟩ := Instr.wf_ctx h
  rw [encode, decode_bytes c i.desc hof, decodeDesc_desc h]

theorem encode_length {i : Instr} (h : i.wf c = true) (big : Bool) :
    (encode big i).length = c.system.bytes :=
  Desc.bytes_length_of big c.system i.desc (Instr.wf_ctx h).2

end Sys2Proof
end

section
/-! PROOFS. What a step is (spec/00_scope.md R2): the descriptor's bytes read, decoded and run. -/

namespace Sys2Proof.Machine

open Sys2Proof Sys2Proof.Claims

/-- A read of as many bytes as memory holds at the descriptor's address answers them (R51). -/
theorem State.fetchBytes_of_holds {s : State} {bs : List Byte} (h : holds s bs)
    (hlen : bs.length = s.ctx.system.bytes) : s.fetchBytes = .ok bs := by
  obtain ⟨hroom, hread⟩ := h
  rw [State.fetchBytes, ← hlen]
  exact s.memRead_eq_ok _ bs hroom hread

/-- A step whose bytes are read and decode to an instruction is that instruction's meaning. -/
theorem step_of_fetch_decode {s : State} {bs : List Byte} {i : Instr} (hb : s.fetchBytes = .ok bs)
    (hi : decode s.ctx bs = .ok i) : step s = exec i s := by
  simp [step, hb, hi]

/-- Settles O10: the bytes read are the encoder's, and the decoder undoes the encoder. -/
theorem stepRunsTheDecodedInstruction : Obligations.StepRunsTheDecodedInstruction := by
  intro s i hwf hmem
  have hfetch : s.fetchBytes = .ok (encode s.ctx.big_endian_walk i) :=
    State.fetchBytes_of_holds hmem (encode_length hwf s.ctx.big_endian_walk)
  exact step_of_fetch_decode hfetch (decode_encode hwf)

end Sys2Proof.Machine
end

section
/-! PROOFS. What the decoder answers: the one refusal of a descriptor in an accepted context (R152), the
refusals for the context (R46), and that a format it answers applies (R74, R76). -/

namespace Sys2Proof

open Sys2Proof.Machine Sys2Proof.Claims

variable {c : Ctx}

theorem isOf_d64_iff {d : Desc64} {sys : System} : (Desc.d64 d).isOf sys = true ↔ sys = .VMSAv8_64 := by
  cases sys <;> simp [Desc.isOf]

theorem isOf_d128_iff {d : Desc128} {sys : System} :
    (Desc.d128 d).isOf sys = true ↔ sys = .VMSAv9_128 := by
  cases sys <;> simp [Desc.isOf]

@[simp] theorem isOf_desc (sys : System) (v : Nat) : (sys.desc v).isOf sys = true := by
  cases sys <;> rfl

/-- A VMSAv8-64 descriptor is refused only as a Block without a row of R151 (R152). -/
theorem decodeV8_error {d : Desc64} {e : DecodeReject} (h : decodeV8 c d = .error e) :
    e = .noBlockFormat ∧ classifyV8 c d = .Block ∧ blockShiftV8 c = none := by
  unfold decodeV8 at h
  cases hk : classifyV8 c d with simp only [hk] at h
  | ReservedInvalid => cases h
  | Invalid | Table | Page => cases hs : c.stage <;> simp [hs] at h
  | Block =>
    cases hn : blockShiftV8 c with simp only [hn] at h
    | none => exact ⟨(Except.error.inj h).symm, rfl, rfl⟩
    | some n => cases hs : c.stage <;> simp [hs] at h

theorem decodeDesc_eq_context_iff {d : Desc} {r : CtxReject} :
    decodeDesc c d = .error (.context r) ↔ c.check = some r := by
  unfold decodeDesc
  cases c.check with
  | some r' => simp
  | none =>
    cases d with
    | d64 d => simpa using fun h => by simpa using (decodeV8_error h).1
    | d128 d => simp

/-- With enough bytes, a decode is refused for its context exactly where a check fails. -/
theorem decode_eq_context_iff {bs : List Byte} {r : CtxReject} (h : c.system.bytes ≤ bs.length) :
    decode c bs = .error (.context r) ↔ c.check = some r := by
  rw [decode, if_neg (Nat.not_lt.2 h), decodeDesc_eq_context_iff]

theorem exists_check_iff : (∃ r, c.check = some r) ↔ c.wf = false := by
  rw [← Option.ne_none_iff_exists', Ne, check_none_iff, Bool.not_eq_true]

/-! ### A format that the decoder answers applies -/

theorem level_eq_three_of_classifyV8 {d : Desc64}
    (h : classifyV8 c d = .Page ∨ classifyV8 c d = .ReservedInvalid) : c.level = 3 := by
  by_contra hne
  unfold classifyV8 at h
  grind

theorem level_lt_three_of_classifyV8 {d : Desc64} (hw : c.wf = true)
    (h : classifyV8 c d = .Table ∨ classifyV8 c d = .Block) : c.level < 3 := by
  refine lt_of_le_of_ne (c.wf_level hw).2 fun h3 => ?_
  unfold classifyV8 at h
  grind

theorem noV8BlockFormat_eq_false {n : Nat} (hw : c.wf = true) (h3 : c.level < 3)
    (hn : blockShiftV8 c = some n) : c.noV8BlockFormat = false := by
  rw [← Bool.not_eq_true, ← blockShiftV8_eq_none_iff (c.wf_level hw).1 h3, hn]
  simp

theorem wf_of_decodeV8 {d : Desc64} {i : Instr} (hw : c.wf = true) (hsys : c.system = .VMSAv8_64)
    (h : decodeV8 c d = .ok i) : i.wf c = true := by
  have h3 := level_eq_three_of_classifyV8 (c := c) (d := d)
  have hlt := level_lt_three_of_classifyV8 (d := d) hw
  unfold decodeV8 at h
  cases hk : classifyV8 c d with simp only [hk] at h
  | ReservedInvalid =>
    cases h
    simp [Instr.wf, hw, hsys, h3, hk]
  | Invalid | Page | Table =>
    cases hs : c.stage <;>
      · rw [hs] at h
        cases h
        simp [Instr.wf, Ctx.isFor, hw, hsys, hs, h3, hlt, hk]
  | Block =>
    cases hn : blockShiftV8 c with simp only [hn] at h
    | none => cases h
    | some n =>
      have hb := noV8BlockFormat_eq_false hw (hlt (.inr hk)) hn
      cases hs : c.stage <;>
        · rw [hs] at h
          cases h
          simp [Instr.wf, Ctx.isFor, hw, hsys, hs, hlt, hk, hb]

theorem wf_of_decodeV9 {d : Desc128} (hw : c.wf = true) (hsys : c.system = .VMSAv9_128) :
    (decodeV9 c d).wf c = true := by
  unfold decodeV9
  cases hk : classifyV9 c d with
  | Table =>
    have ht := (classifyV9Skl_table_iff.1 hk).2
    cases hs : c.stage <;> simp [Instr.wf, Ctx.isFor, hw, hsys, hs] <;> exact ht
  | BlockOrPage =>
    have hl := (classifyV9Skl_leaf_iff.1 hk).2
    cases hs : c.stage <;> simp [Instr.wf, Ctx.isFor, hw, hsys, hs] <;> exact hl
  | Invalid cause =>
    have hcause : v9InvalidCause c d = some cause := by simp [v9InvalidCause, hk]
    rw [← v9InvalidBits_ofBits d] at hcause
    have := v9InvalidCause_isSome.1 (Option.isSome_of_mem hcause)
    simpa [Instr.wf, hw, hsys] using this

/-- The decoder picks a format that applies in the context (R79). -/
theorem wf_of_decodeDesc {d : Desc} {i : Instr} (hd : d.isOf c.system = true)
    (h : decodeDesc c d = .ok i) : i.wf c = true := by
  have hw : c.wf = true := by
    cases hc : c.check with
    | some r => simp [decodeDesc, hc] at h
    | none => exact (check_none_iff c).1 hc
  cases d with
  | d64 d => exact wf_of_decodeV8 hw (isOf_d64_iff.1 hd) (decodeDesc_d64_of_wf hw d ▸ h)
  | d128 d =>
    rw [decodeDesc_d128_of_wf hw] at h
    cases h
    exact wf_of_decodeV9 hw (isOf_d128_iff.1 hd)

theorem wf_of_decode {bs : List Byte} {i : Instr} (h : decode c bs = .ok i) : i.wf c = true := by
  unfold decode at h
  split at h
  · cases h
  · exact wf_of_decodeDesc (isOf_desc _ _) h

/-! ### What the decoder refuses -/

theorem noBlockRow_of_noV8BlockFormat (h : c.noV8BlockFormat = true) : noBlockRow c := by
  simpa [Ctx.noV8BlockFormat, noBlockRow, or_assoc, and_assoc] using h

/-- A descriptor is refused for the context, or as a Block where R151 has no row. -/
theorem decodeDesc_error {d : Desc} {e : DecodeReject} (hd : d.isOf c.system = true)
    (h : decodeDesc c d = .error e) :
    (∃ r, e = .context r ∧ c.wf = false)
      ∨ (e = .noBlockFormat ∧ c.system = .VMSAv8_64 ∧ noBlockRow c) := by
  cases hw : c.wf with
  | false =>
    obtain ⟨r, hc⟩ := exists_check_iff.2 hw
    rw [decodeDesc_eq_context_iff.2 hc] at h
    exact .inl ⟨r, (Except.error.inj h).symm, rfl⟩
  | true =>
    cases d with
    | d64 d =>
      rw [decodeDesc_d64_of_wf hw] at h
      obtain ⟨he, hclass, hnone⟩ := decodeV8_error h
      have h3 := level_lt_three_of_classifyV8 hw (.inr hclass)
      have hb := (blockShiftV8_eq_none_iff (c.wf_level hw).1 h3).1 hnone
      exact .inr ⟨he, isOf_d64_iff.1 hd, noBlockRow_of_noV8BlockFormat hb⟩
    | d128 d =>
      rw [decodeDesc_d128_of_wf hw] at h
      cases h

/-- The same of the bytes that a step reads, which are never too few. -/
theorem decode_error {bs : List Byte} {e : DecodeReject} (hlen : bs.length = c.system.bytes)
    (h : decode c bs = .error e) :
    (∃ r, e = .context r ∧ c.wf = false)
      ∨ (e = .noBlockFormat ∧ c.system = .VMSAv8_64 ∧ noBlockRow c) := by
  rw [decode, if_neg hlen.not_lt] at h
  exact decodeDesc_error (isOf_desc _ _) h

/-- Settles O6: a decode is refused for its context where `Ctx.wf` fails, which is where one of its
conjuncts does. -/
theorem contextsOutsideTheSpecAreRefused : Obligations.ContextsOutsideTheSpecAreRefused := by
  intro c bs hlen
  simp only [decode_eq_context_iff hlen, exists_check_iff]
  unfold Ctx.wf
  simp only [Bool.and_eq_false_iff, Bool.or_eq_false_iff, Bool.not_eq_false', Bool.and_eq_true,
    decide_eq_false_iff_not, decide_eq_true_eq, Int.not_le, or_and_right, or_assoc, ne_eq]

end Sys2Proof
end

section
/-! PROOFS. Reading the descriptor (R51, R57, R290): which bytes are readable, and how an unreadable one
stops a step (log entry 3). -/

namespace Sys2Proof.Machine

open Sys2Proof Sys2Proof.Claims

variable {s t : State}

theorem State.readByte_of_written {a : Nat} (ha : a < addressSpace) (h : (s.mem.read a).isSome = true) :
    ∃ x, s.readByte a = .ok x := by
  obtain ⟨x, hx⟩ := Option.isSome_iff_exists.1 h
  exact ⟨x, by rw [State.readByte, if_neg (Nat.not_le.2 ha), hx]⟩

theorem State.readByte_of_beyond {a : Nat} (ha : addressSpace ≤ a) :
    s.readByte a = .error (.addressBeyondSpace a) := by
  rw [State.readByte, if_pos ha]

theorem State.readByte_of_unwritten {a : Nat} (ha : a < addressSpace) (h : s.mem.read a = none) :
    s.readByte a = .error (.memoryNotWritten a) := by
  rw [State.readByte, if_neg (Nat.not_le.2 ha), h]

/-- A byte is unreadable only where it was never written or does not exist. -/
theorem State.readByte_error {a : Nat} {r : Fault} (h : s.readByte a = .error r) :
    (r = .memoryNotWritten a ∧ s.mem.read a = none)
      ∨ (r = .addressBeyondSpace a ∧ addressSpace ≤ a) := by
  unfold State.readByte at h
  split at h
  · next ha => exact .inr ⟨(Except.error.inj h).symm, ha⟩
  · split at h
    · cases h
    · next hx => exact .inl ⟨(Except.error.inj h).symm, hx⟩

/-- `MemRead` faults only at a byte that is unreadable. -/
theorem State.memRead_error {a n : Nat} {r : Fault} (h : s.memRead a n = .error r) :
    ∃ b, s.readByte b = .error r := by
  induction n generalizing a with
  | zero => cases h
  | succ n ih =>
    simp only [State.memRead] at h
    split at h
    · next hb => cases h; exact ⟨a, hb⟩
    · split at h
      · next hrest => cases h; exact ih hrest
      · cases h

/-- `MemRead` faults as its first unreadable byte does. -/
theorem State.memRead_of_unreadable {a n k : Nat} {r : Fault} (hk : k < n)
    (hbefore : ∀ j, j < k → ∃ x, s.readByte (a + j) = .ok x) (h : s.readByte (a + k) = .error r) :
    s.memRead a n = .error r := by
  induction n generalizing a k with
  | zero => cases hk
  | succ n ih =>
    cases k with
    | zero =>
      rw [Nat.add_zero] at h
      simp only [State.memRead, h]
    | succ k =>
      obtain ⟨x, hx⟩ := hbefore 0 k.succ_pos
      rw [Nat.add_zero] at hx
      have hrest : s.memRead (a + 1) n = .error r := by
        refine ih (Nat.lt_of_succ_lt_succ hk) (fun j hj => ?_) ?_
        · rw [Nat.add_assoc, Nat.add_comm 1]
          exact hbefore (j + 1) (Nat.succ_lt_succ hj)
        · rw [Nat.add_assoc, Nat.add_comm 1, h]
      simp only [State.memRead, hx, hrest]

theorem step_of_fetch_error {r : Fault} (h : s.fetchBytes = .error r) : step s = .fault r := by
  simp [step, h]

/-- Settles O12: the bytes before the `k`-th are read, and `MemRead` faults at it. -/
theorem unreadableDescriptorFaults : Obligations.UnreadableDescriptorFaults := by
  intro s k hk hbefore
  have hfault {r : Fault} (h : s.readByte (s.desc_addr.toNat + k) = .error r) : step s = .fault r :=
    step_of_fetch_error <| State.memRead_of_unreadable hk
      (fun j hj => State.readByte_of_written (hbefore j hj).2 (hbefore j hj).1) h
  exact ⟨fun hbeyond => hfault (State.readByte_of_beyond hbeyond),
    fun hin hnone => hfault (State.readByte_of_unwritten hin hnone)⟩

end Sys2Proof.Machine
end

section
/-! PROOFS. How an instruction and a step end (R20, R61): an outcome latched and nothing else changed, or
a stop by name. -/

namespace Sys2Proof.Machine

open Sys2Proof Sys2Proof.Claims

variable {s t : State}

theorem State.runFormat_ne_fault {p : Bool} {d : Decoded} {r : Fault} :
    s.runFormat p d ≠ .fault r := by
  unfold State.runFormat
  cases s.ctx.check <;> cases p <;> simp

theorem State.runFormatWith_ne_fault {α : Type} {p : Bool} {x : Option α} {why : Refusal}
    {d : α → Decoded} {r : Fault} : s.runFormatWith p x why d ≠ .fault r := by
  unfold State.runFormatWith
  cases s.ctx.check <;> cases p <;> cases x <;> simp

/-- Only the read of the descriptor faults, no meaning does (R270, R271). -/
theorem exec_ne_fault (i : Instr) {r : Fault} : exec i s ≠ .fault r := by
  cases i with
  | v8BlockS1 | v8BlockS2 | v9Invalid => exact State.runFormatWith_ne_fault
  | v8TableS1 | v8TableS2 | v8PageS1 | v8PageS2 | v8InvalidS1 | v8InvalidS2 | v8Reserved | v9TableS1
  | v9TableS2 | v9BlockPageS1 | v9BlockPageS2 => exact State.runFormat_ne_fault

/-- Where its format applies, an instruction latches an outcome. -/
theorem exec_of_wf {i : Instr} (h : i.wf s.ctx = true) : ∃ dec, exec i s = .next (s.deliver dec) := by
  cases i with
  | v8TableS1 o => exact ⟨_, execV8TableS1_next_iff.2 ⟨h, rfl⟩⟩
  | v8TableS2 o => exact ⟨_, execV8TableS2_next_iff.2 ⟨h, rfl⟩⟩
  | v8BlockS1 a m nt lo =>
    obtain ⟨hw, ⟨-, h3⟩, hb⟩ := by simpa [Instr.wf] using h
    obtain ⟨n, hn⟩ := exists_blockShiftV8 hw h3 hb
    exact ⟨_, execV8BlockS1_next_iff.2 ⟨h, n, hn, rfl⟩⟩
  | v8PageS1 a m => exact ⟨_, execV8PageS1_next_iff.2 ⟨h, rfl⟩⟩
  | v8BlockS2 a m nt lo =>
    obtain ⟨hw, ⟨-, h3⟩, hb⟩ := by simpa [Instr.wf] using h
    obtain ⟨n, hn⟩ := exists_blockShiftV8 hw h3 hb
    exact ⟨_, execV8BlockS2_next_iff.2 ⟨h, n, hn, rfl⟩⟩
  | v8PageS2 a m => exact ⟨_, execV8PageS2_next_iff.2 ⟨h, rfl⟩⟩
  | v8InvalidS1 hi p l => exact ⟨_, execV8InvalidS1_next_iff.2 ⟨h, rfl⟩⟩
  | v8InvalidS2 hi => exact ⟨_, execV8InvalidS2_next_iff.2 ⟨h, rfl⟩⟩
  | v8Reserved hi => exact ⟨_, execV8Reserved_next_iff.2 ⟨h, rfl⟩⟩
  | v9TableS1 o => exact ⟨_, execV9TableS1_next_iff.2 ⟨h, rfl⟩⟩
  | v9TableS2 o => exact ⟨_, execV9TableS2_next_iff.2 ⟨h, rfl⟩⟩
  | v9BlockPageS1 o => exact ⟨_, execV9BlockPageS1_next_iff.2 ⟨h, rfl⟩⟩
  | v9BlockPageS2 o => exact ⟨_, execV9BlockPageS2_next_iff.2 ⟨h, rfl⟩⟩
  | v9Invalid hi p l v =>
    obtain ⟨-, -, hinv⟩ := by simpa [Instr.wf] using h
    obtain ⟨cause, hc⟩ := Option.isSome_iff_exists.1 (v9InvalidCause_isSome.2 hinv)
    exact ⟨_, execV9Invalid_next_iff.2 ⟨h, cause, hc, rfl⟩⟩

/-- Settles O36: a format that applies latches an outcome; one that does not apply answers no next state,
and no meaning faults, so it refuses. -/
theorem execCompletesExactlyWhereTheFormatApplies :
    Obligations.ExecCompletesExactlyWhereTheFormatApplies := by
  refine fun i s => ⟨exec_of_wf, fun hwf => ?_⟩
  cases he : exec i s with
  | next t => exact absurd (exec_next he).1 (by simp [hwf])
  | fault r => exact absurd he (exec_ne_fault i)
  | refused r => exact ⟨r, rfl⟩

/-- Settles O37: the next state is the old one with an outcome delivered. -/
theorem stepWritesOnlyTheOutcome : Obligations.StepWritesOnlyTheOutcome := by
  intro s t h
  obtain ⟨bs, i, -, -, hexec⟩ := step_next h
  obtain ⟨-, dec, rfl⟩ := exec_next hexec
  exact ⟨rfl, rfl, rfl, rfl, fun a => rfl, dec, rfl⟩

/-- An unreadable byte of the descriptor is one that was never written or lies beyond the address space. -/
theorem State.fetchBytes_error {r : Fault} (h : s.fetchBytes = .error r) :
    (∃ a, r = .memoryNotWritten a ∧ s.mem.read a = none)
      ∨ (∃ a, r = .addressBeyondSpace a ∧ 2 ^ 56 ≤ a) := by
  obtain ⟨a, ha⟩ := State.memRead_error h
  exact (State.readByte_error ha).imp (⟨a, ·⟩) (⟨a, ·⟩)

theorem step_of_fetch_decode_error {bs : List Byte} {e : DecodeReject} (hb : s.fetchBytes = .ok bs)
    (he : decode s.ctx bs = .error e) : step s = .refused (refusalOf e) := by
  simp [step, hb, he]

/-- Settles O38: a step faults where the read does, is refused where the decoder refuses, and otherwise
runs a format that applies. -/
theorem whatStopsAStep : Obligations.WhatStopsAStep := by
  intro s
  cases hb : s.fetchBytes with
  | error r =>
    have hstep := step_of_fetch_error hb
    obtain ⟨a, rfl, ha⟩ | ⟨a, rfl, ha⟩ := State.fetchBytes_error hb
    · exact .inr (.inl ⟨a, hstep, ha⟩)
    · exact .inr (.inr (.inl ⟨a, hstep, ha⟩))
  | ok bs =>
    cases hd : decode s.ctx bs with
    | ok i =>
      obtain ⟨dec, hexec⟩ := exec_of_wf (wf_of_decode hd)
      exact .inl ⟨_, (step_of_fetch_decode hb hd).trans hexec⟩
    | error e =>
      have hstep := step_of_fetch_decode_error hb hd
      obtain ⟨r, rfl, hw⟩ | ⟨rfl, hrow⟩ := decode_error (State.memRead_length hb) hd
      · exact .inr (.inr (.inr (.inl ⟨r, hstep, hw⟩)))
      · exact .inr (.inr (.inr (.inr ⟨hstep, hrow⟩)))

end Sys2Proof.Machine
end

section
/-! PROOFS. A step in another context (R20: the context is an input): when the descriptor decodes to the
same format and the format reads the same, the step yields the same outcome. Then the controls that some
formats do not read (R25, R28, R107, R194). -/

namespace Sys2Proof.Machine

open Sys2Proof Sys2Proof.Claims

variable {s t : State} {c c' : Ctx}

/-! ### The same decode in two contexts -/

theorem decode_congr {bs : List Byte} (hsys : c'.system = c.system)
    (hbig : c'.big_endian_walk = c.big_endian_walk)
    (hdec : ∀ v, decodeDesc c' (c.system.desc v) = decodeDesc c (c.system.desc v)) :
    decode c' bs = decode c bs := by
  unfold decode
  rw [hsys, hbig, hdec]

/-- Two accepted contexts decode every descriptor alike where both systems' type determinations agree. -/
theorem decodeDesc_congr (hw : c.wf = true) (hw' : c'.wf = true)
    (h8 : ∀ d, decodeV8 c' d = decodeV8 c d) (h9 : ∀ d, decodeV9 c' d = decodeV9 c d) (d : Desc) :
    decodeDesc c' d = decodeDesc c d := by
  cases d with
  | d64 d => rw [decodeDesc_d64_of_wf hw, decodeDesc_d64_of_wf hw', h8]
  | d128 d => rw [decodeDesc_d128_of_wf hw, decodeDesc_d128_of_wf hw', h9]

theorem fetchBytes_withCtx (hsys : c'.system = s.ctx.system) :
    ({ s with ctx := c' } : State).fetchBytes = s.fetchBytes := by
  unfold State.fetchBytes
  rw [hsys]
  exact State.memRead_congr _ _ fun _ _ _ => rfl

/-- A step that completes does so in another context as well, if the descriptor has the same length and
byte order there, decodes to the same format, and the format completes with the same outcome. -/
theorem step_withCtx (h : step s = .next t) (hsys : c'.system = s.ctx.system)
    (hbig : c'.big_endian_walk = s.ctx.big_endian_walk)
    (hdec : ∀ v, decodeDesc c' (s.ctx.system.desc v) = decodeDesc s.ctx (s.ctx.system.desc v))
    (hexec : ∀ i, exec i s = .next t → exec i { s with ctx := c' } = .next { t with ctx := c' }) :
    step { s with ctx := c' } = .next { t with ctx := c' } := by
  obtain ⟨bs, i, hb, hi, he⟩ := step_next h
  calc step { s with ctx := c' }
      = exec i { s with ctx := c' } :=
        step_of_fetch_decode ((fetchBytes_withCtx hsys).trans hb)
          ((decode_congr hsys hbig hdec).trans hi)
    _ = .next { t with ctx := c' } := hexec i he

/-- A format that applies and yields the same in another accepted context completes there too. -/
theorem runFormat_withCtx {p : Bool} {d : Decoded} (hw : c'.wf = true)
    (h : s.runFormat p d = .next t) :
    ({ s with ctx := c' } : State).runFormat p d = .next { t with ctx := c' } := by
  obtain ⟨-, hp, rfl⟩ := State.runFormat_next_iff.1 h
  exact State.runFormat_next_iff.2 ⟨hw, hp, rfl⟩

theorem runFormatWith_withCtx {α : Type} {p : Bool} {x : Option α} {why : Refusal} {d : α → Decoded}
    (hw : c'.wf = true) (h : s.runFormatWith p x why d = .next t) :
    ({ s with ctx := c' } : State).runFormatWith p x why d = .next { t with ctx := c' } := by
  obtain ⟨-, hp, v, hx, rfl⟩ := State.runFormatWith_next_iff.1 h
  exact State.runFormatWith_next_iff.2 ⟨hw, hp, v, hx, rfl⟩

theorem step_next_ctx (h : step s = .next t) : s.ctx.wf = true ∧ t.ctx = s.ctx := by
  obtain ⟨bs, i, -, -, he⟩ := step_next h
  obtain ⟨hwf, dec, rfl⟩ := exec_next he
  exact ⟨(Instr.wf_ctx hwf).1, rfl⟩

/-! ### The controls of the 64-bit formats -/

/-- Settles O47: the 128-bit descriptor decodes to the same format, and the condition, the fields and the
rows of a VMSAv9-128 format are the same terms in both contexts. -/
theorem v9FormatsReadNoV8Control : Obligations.V9FormatsReadNoV8Control := by
  intro s t DS LPA BTI BBML1 XNX XS NV hier PnCH ind1 ind2 assured pbha c hsys hw h
  refine step_withCtx h rfl rfl (fun v => ?_) fun i he => ?_
  · rw [hsys, System.desc, decodeDesc_d128_of_wf hw, decodeDesc_d128_of_wf (step_next_ctx h).1]
    rfl
  · have hwf := (exec_next he).1
    cases i with
    | v9TableS1 | v9TableS2 | v9BlockPageS1 | v9BlockPageS2 => exact runFormat_withCtx hw he
    | v9Invalid => exact runFormatWith_withCtx hw he
    | _ => simp [Instr.wf, Ctx.isFor, hsys] at hwf

/-! ### DS with the 64KB granule -/

theorem decodeV8_withDS_64K {b : Bool} {d : Desc64} (hg : c.granule = .G64K) :
    decodeV8 { c with DS := b } d = decodeV8 c d := by
  have : blockShiftV8 { c with DS := b } = blockShiftV8 c := by simp [blockShiftV8, hg]
  unfold decodeV8
  rw [this]
  rfl

/-- With the granule made a literal, each match on it computes to the 64KB branch, which does not read
DS, so the two meanings are the same terms. -/
theorem exec_withDS_64K {i : Instr} {b : Bool} (hg : s.ctx.granule = .G64K) (h : exec i s = .next t) :
    exec i { s with ctx := { s.ctx with DS := b } } = .next { t with ctx := { s.ctx with DS := b } } := by
  have hw : ({ s.ctx with DS := b } : Ctx).wf = true := (Instr.wf_ctx (exec_next h).1).1
  obtain ⟨c, mem, addr, ia, out⟩ := s
  cases c
  cases hg
  cases i with
  | v8BlockS1 | v8BlockS2 | v9Invalid => exact runFormatWith_withCtx hw h
  | _ => exact runFormat_withCtx hw h

/-- Settles O48: the descriptor decodes to the same format, whose meaning does not read DS. -/
theorem dsIsNotReadWithThe64KBGranule : Obligations.DSIsNotReadWithThe64KBGranule := by
  intro s t b hg h
  obtain ⟨hw, ht⟩ := step_next_ctx h
  have hw' : ({ s.ctx with DS := b } : Ctx).wf = true := hw
  rw [ht]
  exact step_withCtx h rfl rfl
    (fun v => decodeDesc_congr hw hw' (fun _ => decodeV8_withDS_64K hg) (fun _ => rfl) _)
    fun i => exec_withDS_64K hg

/-! ### NV_NV1 outside stage 1 of the EL1&0 regime -/

theorem wf_withNV {b : Bool} (hr : c.regime = .EL1_0) : ({ c with NV_NV1 := b } : Ctx).wf = c.wf := by
  simp [Ctx.wf, hr]

/-- The formats that read NV_NV1 are the stage 1 Table, Block and Page formats of VMSAv8-64, which do not
apply at stage 2. -/
theorem exec_withNV_stage2 {i : Instr} {b : Bool} (hs : s.ctx.stage = .S2) (hr : s.ctx.regime = .EL1_0)
    (h : exec i s = .next t) :
    exec i { s with ctx := { s.ctx with NV_NV1 := b } }
      = .next { t with ctx := { s.ctx with NV_NV1 := b } } := by
  have hwf := (exec_next h).1
  have hw : ({ s.ctx with NV_NV1 := b } : Ctx).wf = true := (wf_withNV hr).trans (Instr.wf_ctx hwf).1
  cases i with
  | v8TableS1 | v8BlockS1 | v8PageS1 => simp [Instr.wf, Ctx.isFor, hs] at hwf
  | v8BlockS2 | v9Invalid => exact runFormatWith_withCtx hw h
  | _ => exact runFormat_withCtx hw h

/-- Of an accepted context, setting NV_NV1 outside the EL1&0 regime breaks that one check (R46, D22). -/
theorem check_withNV_outside_EL1 (hw : c.wf = true) (hr : c.regime ≠ .EL1_0) :
    ({ c with NV_NV1 := true } : Ctx).check = some .nvOutsideEL1 := by
  have h := (check_none_iff c).2 hw
  unfold Ctx.check at h ⊢
  rw [if_neg, if_neg, if_neg, if_neg, if_pos ⟨rfl, hr⟩] <;> grind

theorem step_of_fetch_check {bs : List Byte} {r : CtxReject} (hb : s.fetchBytes = .ok bs)
    (hc : s.ctx.check = some r) : step s = .refused (.context r) :=
  step_of_fetch_decode_error hb
    ((decode_eq_context_iff (State.memRead_length hb).ge).2 hc)

/-- Settles O49: at stage 2 of the EL1&0 regime no format that applies reads NV_NV1; in another regime
the checks refuse it. -/
theorem nvIsReadOnlyInEL1Stage1 : Obligations.NVIsReadOnlyInEL1Stage1 := by
  intro s t b hnot h
  obtain ⟨hw, ht⟩ := step_next_ctx h
  refine ⟨fun hr => ?_, fun hr => ⟨?_, ?_⟩⟩
  · have hs : s.ctx.stage = .S2 := by
      cases hs : s.ctx.stage with
      | S1 => exact absurd ⟨hr, hs⟩ hnot
      | S2 => rfl
    have hw' : ({ s.ctx with NV_NV1 := b } : Ctx).wf = true := (wf_withNV hr).trans hw
    rw [ht]
    exact step_withCtx h rfl rfl
      (fun v => decodeDesc_congr hw hw' (fun _ => rfl) (fun _ => rfl) _)
      fun i => exec_withNV_stage2 hs hr
  · exact Bool.eq_false_iff.2 fun hnv => hr (Ctx.wf_nv hw hnv)
  · obtain ⟨bs, i, hb, -, -⟩ := step_next h
    have hb' := (fetchBytes_withCtx (c' := { s.ctx with NV_NV1 := true }) rfl).trans hb
    exact step_of_fetch_check hb' (check_withNV_outside_EL1 hw hr)

end Sys2Proof.Machine
end

section
/-! PROOFS. Addresses (R53, R59): what is aligned to the granule or to the block size, and that an output
address continues its base. Aligned to `2 ^ n` is spelt `2 ^ n ∣ a.toNat` throughout. -/

namespace Sys2Proof.Machine

open Sys2Proof

variable {c : Ctx}

theorem dvd_toNat_iff {w : Nat} (a : BitVec w) (n : Nat) : 2 ^ n ∣ a.toNat ↔ a.setWidth n = 0#n := by
  rw [← BitVec.toNat_inj, BitVec.toNat_setWidth, BitVec.toNat_zero, Nat.dvd_iff_mod_eq_zero]

/-- Appending below keeps the alignment of the low part, whose width the alignment does not exceed. -/
theorem dvd_toNat_append {v w n : Nat} {x : BitVec v} {y : BitVec w} (hn : n ≤ w)
    (hy : 2 ^ n ∣ y.toNat) : 2 ^ n ∣ (x ++ y).toNat := by
  rw [BitVec.toNat_append, ← Nat.shiftLeft_add_eq_or_of_lt y.isLt, Nat.shiftLeft_eq]
  exact Nat.dvd_add ((Nat.pow_dvd_pow 2 hn).trans (Nat.dvd_mul_left _ _)) hy

theorem dvd_toNat_append_zero {v n : Nat} (x : BitVec v) : 2 ^ n ∣ (x ++ 0#n).toNat :=
  dvd_toNat_append le_rfl (by simp)

/-- The address in a VMSAv8-64 Table or Page descriptor is aligned to the granule size (R53, R104, R150). -/
theorem granuleAddrV8_aligned (x : BitVec 2) (m : BitVec 36) (y : BitVec 2) :
    2 ^ granuleBits c.granule ∣ (granuleAddrV8 c x m y).toNat := by
  unfold granuleAddrV8
  cases c.granule <;> simp only <;> split <;> exact dvd_toNat_append_zero _

/-- The address in a valid VMSAv9-128 descriptor is aligned to the granule size (R53, R194, R226). -/
theorem granuleAddrV9_aligned (m : BitVec 44) :
    2 ^ granuleBits c.granule ∣ (granuleAddrV9 c m).toNat := by
  unfold granuleAddrV9
  cases c.granule <;> exact dvd_toNat_append_zero _

theorem twelve_le_granuleBits (g : Granule) : 12 ≤ granuleBits g := by
  cases g <;> decide

/-- The OAB of a VMSAv8-64 Block is aligned to the block size (R151). -/
theorem oabBlockV8_aligned {n : Nat} (hn : n ≤ 48) (x : BitVec 2) (hi : BitVec 31) (lo : BitVec 4)
    (y : BitVec 2) : 2 ^ n ∣ (oabBlockV8 c n x hi lo y).toNat := by
  refine dvd_toNat_append hn ?_
  rw [BitVec.toNat_shiftLeft, Nat.dvd_mod_iff (Nat.pow_dvd_pow 2 hn), Nat.shiftLeft_eq]
  exact Nat.dvd_mul_left _ _

/-- The rows of R151 have their low bound inside bits [47:17]. -/
theorem blockShiftV8_bounds {n : Nat} (h : blockShiftV8 c = some n) : 18 ≤ n ∧ n ≤ 47 := by
  unfold blockShiftV8 at h
  cases hg : c.granule <;> simp only [hg] at h <;> grind

/-- Above bit `n` an output address is its base (R59). -/
theorem formOA_ushiftRight {w : Nat} (base : BitVec w) (n : Nat) (ia : BitVec 64) :
    formOA base n ia >>> n = base >>> n := by
  refine BitVec.eq_of_getLsbD_eq fun k _ => ?_
  rcases lt_or_ge (n + k) w with hk | hk
  · simp [formOA, hk]
  · simp [BitVec.getLsbD_of_ge, hk]

/-- The two facts that relate an output address to its base: above bit `n` it continues the base, which has
no bit below. -/
theorem formOA_continues {w : Nat} {base : BitVec w} {n : Nat} (ia : BitVec 64) (h : 2 ^ n ∣ base.toNat) :
    formOA base n ia >>> n = base >>> n ∧ base.setWidth n = 0#n :=
  ⟨formOA_ushiftRight base n ia, (dvd_toNat_iff base n).1 h⟩

end Sys2Proof.Machine
end

section
/-! PROOFS. What a Table says of the next table (R53 to R55), over all Table formats. -/

namespace Sys2Proof.Machine

open Sys2Proof Sys2Proof.Claims

variable {s t : State}

/-- In the context `c` a Table may lead to the next table with this address, kind, level and SKL. -/
structure NextTableOf (c : Ctx) (a : BitVec 56) (k : AddrKind) (l : Int) (skl : BitVec 2) : Prop where
  aligned : 2 ^ granuleBits c.granule ∣ a.toNat
  kind : k = nltaKind c
  level : l = nextLevel c skl
  lower : -2 ≤ c.level
  upper : c.level + skl.toNat < 3

theorem nltaKind_stage2 {c : Ctx} (h : c.stage = .S2) : nltaKind c = .PA := by
  simp [nltaKind, h]

/-- A 52-bit address zero-extended to 56 bits. -/
theorem toNat_setWidth_56 (a : BitVec 52) : (a.setWidth 56).toNat = a.toNat :=
  BitVec.toNat_setWidth_of_le (by decide)

theorem nltaV8_aligned (c : Ctx) (x : BitVec 2) (m : BitVec 36) (y : BitVec 2) :
    2 ^ granuleBits c.granule ∣ ((nltaV8 c x m y).setWidth 56).toNat := by
  rw [toNat_setWidth_56]
  exact granuleAddrV8_aligned x m y

theorem runFormat_output {p : Bool} {d dec : Decoded} (h : s.runFormat p d = .next t)
    (ht : t.output = some dec) : dec = d := by
  obtain ⟨-, -, rfl⟩ := State.runFormat_next_iff.1 h
  exact (Option.some.inj ht).symm

theorem runFormatWith_output {α : Type} {p : Bool} {x : Option α} {why : Refusal} {d : α → Decoded}
    {dec : Decoded} (h : s.runFormatWith p x why d = .next t) (ht : t.output = some dec) :
    ∃ v, x = some v ∧ dec = d v := by
  obtain ⟨-, -, v, hv, rfl⟩ := State.runFormatWith_next_iff.1 h
  exact ⟨v, hv, (Option.some.inj ht).symm⟩

/-- What an instruction that latches a Table says of the next table. -/
theorem exec_nextTable {i : Instr} {dec : Decoded} {a : BitVec 56} {k : AddrKind} {l : Int}
    {skl : BitVec 2} (h : exec i s = .next t) (ht : t.output = some dec)
    (hn : nextTable dec.result = some (a, k, l, skl)) : NextTableOf s.ctx a k l skl := by
  have hwf := (exec_next h).1
  have hlower := (Ctx.wf_level (Instr.wf_ctx hwf).1).1
  cases i with
    simp only [Instr.wf, Ctx.isFor, Ctx.v9TableHere, Bool.and_eq_true, decide_eq_true_eq] at hwf
  | v8TableS1 o =>
    obtain ⟨-, -, hupper⟩ := hwf
    cases runFormat_output h ht
    cases hn
    exact ⟨nltaV8_aligned .., rfl, rfl, hlower, by simpa using hupper⟩
  | v8TableS2 o =>
    obtain ⟨-, ⟨-, hstage⟩, hupper⟩ := hwf
    cases runFormat_output h ht
    cases hn
    exact ⟨nltaV8_aligned .., (nltaKind_stage2 hstage).symm, rfl, hlower, by simpa using hupper⟩
  | v9TableS1 o =>
    obtain ⟨-, -, hupper, -⟩ := hwf
    cases runFormat_output h ht
    cases hn
    exact ⟨granuleAddrV9_aligned .., rfl, rfl, hlower, hupper⟩
  | v9TableS2 o =>
    obtain ⟨-, ⟨-, hstage⟩, hupper, -⟩ := hwf
    cases runFormat_output h ht
    cases hn
    exact ⟨granuleAddrV9_aligned .., (nltaKind_stage2 hstage).symm, rfl, hlower, hupper⟩
  | v8PageS1 | v8PageS2 | v8InvalidS1 | v8InvalidS2 | v8Reserved =>
    cases runFormat_output h ht
    cases hn
  | v8BlockS1 | v8BlockS2 | v9Invalid =>
    obtain ⟨_, -, rfl⟩ := runFormatWith_output h ht
    cases hn
  | v9BlockPageS1 | v9BlockPageS2 =>
    cases runFormat_output h ht
    by_cases hl : s.ctx.level = 3 <;> simp [report, hl, nextTable] at hn

/-- Settles O39: every Table's address kind is that of R54, which is PA at stage 2. -/
theorem nextTableAddressKind : Obligations.NextTableAddressKind := by
  intro i s t dec a k l skl h ht hn
  have hk := (exec_nextTable h ht hn).kind
  exact ⟨hk, fun hs => hk.trans (nltaKind_stage2 hs)⟩

/-- Settles O40: the next level is `level + SKL + 1` and `level + SKL` is below 3, at SKL 0. -/
theorem nextTableLevelWithoutSkip : Obligations.NextTableLevelWithoutSkip := by
  intro i s t dec a k l h ht hn
  obtain ⟨-, -, hl, hlower, hupper⟩ := exec_nextTable h ht hn
  simp only [nextLevel, BitVec.toNat_ofNat] at hl hupper
  exact ⟨hlower, by omega, by omega⟩

/-- Settles O41: `granuleBits` is the exponent of the granule size. -/
theorem nextTableAddressIsGranuleAligned : Obligations.NextTableAddressIsGranuleAligned := by
  intro i s t dec a k l skl h ht hn
  have ha := Nat.mod_eq_zero_of_dvd (exec_nextTable h ht hn).aligned
  cases hg : s.ctx.granule <;> simpa [hg, granuleBits] using ha

end Sys2Proof.Machine
end

section
/-! PROOFS. What a step reads of memory, and the byte order of what it reads (R50 to R52). -/

namespace Sys2Proof.Machine

open Sys2Proof Sys2Proof.Claims

variable {s : State}

/-! ### The rest of memory -/

/-- An outcome whose next state holds another memory. -/
def outcomeWithMem (m : Memory) : Outcome → Outcome
  | .next t => .next { t with mem := m }
  | .fault r => .fault r
  | .refused r => .refused r

theorem runFormat_withMem (m : Memory) (p : Bool) (d : Decoded) :
    ({ s with mem := m } : State).runFormat p d = outcomeWithMem m (s.runFormat p d) := by
  unfold State.runFormat
  cases s.ctx.check <;> cases p <;> rfl

theorem runFormatWith_withMem {α : Type} (m : Memory) (p : Bool) (x : Option α) (why : Refusal)
    (d : α → Decoded) :
    ({ s with mem := m } : State).runFormatWith p x why d
      = outcomeWithMem m (s.runFormatWith p x why d) := by
  unfold State.runFormatWith
  cases s.ctx.check <;> cases p <;> cases x <;> rfl

/-- No meaning reads memory (R2). -/
theorem exec_withMem (m : Memory) (i : Instr) :
    exec i { s with mem := m } = outcomeWithMem m (exec i s) := by
  cases i with
  | v8BlockS1 | v8BlockS2 | v9Invalid => exact runFormatWith_withMem ..
  | _ => exact runFormat_withMem ..

/-- With the same bytes read, a step differs by the memory of its next state only. -/
theorem step_withMem {m : Memory} (h : ({ s with mem := m } : State).fetchBytes = s.fetchBytes) :
    step { s with mem := m } = outcomeWithMem m (step s) := by
  unfold step
  rw [h]
  cases s.fetchBytes with
  | error r => rfl
  | ok bs =>
    cases hi : decode s.ctx bs with
    | error r => simp only [hi]; rfl
    | ok i => simpa only [hi] using exec_withMem m i

/-- Settles O8: `MemRead` answers the same from the same bytes, and no meaning reads memory. -/
theorem stepReadsOnlyTheDescriptor : Obligations.StepReadsOnlyTheDescriptor := by
  intro s m h
  refine step_withMem (State.memRead_congr _ _ fun b hlo hhi => (h b hlo ?_).symm)
  cases hs : s.ctx.system <;> simpa [hs, System.bytes] using hhi

/-! ### Byte order -/

theorem leBytes_getElem (n v k : Nat) (h : k < (leBytes n v).length) :
    (leBytes n v)[k] = BitVec.ofNat 8 (v / 256 ^ k) := by
  induction n generalizing v k with
  | zero => simp [leBytes] at h
  | succ n ih =>
    cases k with
    | zero => simp [leBytes]
    | succ k => simp [leBytes, ih, Nat.div_div_eq_div_mul, Nat.pow_succ']

/-- Byte `k` of a value's bytes in address order (R52). -/
theorem valueBytes_getElem {big : Bool} {n v k : Nat} (h : k < (valueBytes big n v).length) :
    (valueBytes big n v)[k] = BitVec.ofNat 8 (v / 256 ^ (if big then n - 1 - k else k)) := by
  cases big <;> simp [valueBytes, leBytes_getElem, List.getElem_reverse]

/-- Byte `j` of a descriptor is its bits `8j+7` to `8j`. -/
theorem ofNat_div_eq_extract {w : Nat} (d : BitVec w) (j : Nat) :
    BitVec.ofNat 8 (d.toNat / 256 ^ j) = d.extractLsb' (8 * j) 8 := by
  rw [← BitVec.toNat_inj, BitVec.toNat_ofNat, BitVec.extractLsb'_toNat, Nat.shiftRight_eq_div_pow,
    Nat.pow_mul]

/-- A step on the bytes of a descriptor decodes that descriptor and runs what it decodes to. -/
theorem step_of_holds_desc {d : Desc} (hd : d.isOf s.ctx.system = true)
    (h : holds s (d.bytes s.ctx.big_endian_walk)) : step s = outcomeOf s d := by
  have hb := State.fetchBytes_of_holds h (Desc.bytes_length_of _ _ _ hd)
  unfold outcomeOf
  cases hi : decodeDesc s.ctx d with
  | ok i => exact step_of_fetch_decode hb ((decode_bytes s.ctx d hd).trans hi)
  | error e => exact step_of_fetch_decode_error hb ((decode_bytes s.ctx d hd).trans hi)

/-- Memory holds the bytes of a value where each byte is the value's, in the byte order of the context. -/
theorem holds_valueBytes {w n : Nat} {d : BitVec w} (hroom : s.desc_addr.toNat + n ≤ 2 ^ 56)
    (h : ∀ k, k < n → s.mem.read (s.desc_addr.toNat + k)
      = some (d.extractLsb' (8 * (if s.ctx.big_endian_walk then n - 1 - k else k)) 8)) :
    holds s (valueBytes s.ctx.big_endian_walk n d.toNat) := by
  refine ⟨by simpa using hroom, fun k hk => ?_⟩
  rw [h k (by simpa using hk), valueBytes_getElem, ofNat_div_eq_extract]

/-- Settles O9: those bytes are the bytes of the descriptor, which a step decodes. -/
theorem byteOrderOfTheDescriptor : Obligations.ByteOrderOfTheDescriptor :=
  fun _ => ⟨fun _ hsys hroom h => step_of_holds_desc (isOf_d64_iff.2 hsys) (holds_valueBytes hroom h),
    fun _ hsys hroom h => step_of_holds_desc (isOf_d128_iff.2 hsys) (holds_valueBytes hroom h)⟩

end Sys2Proof.Machine
end

section
/-! PROOFS. Every field table tiles its descriptor (section 2 of spec/95_test_vectors.md): once the granule
is a literal, so is every bit number but the low bound of a Block's OAB. -/

namespace Sys2Proof.Machine

open Sys2Proof

variable (c : Ctx)

theorem rowsTile_v8TableS1 : rowsTile 63 (rowsV8TableS1 c) = true := by
  unfold rowsV8TableS1 rows47_12
  cases c.granule <;> rfl

theorem rowsTile_v8TableS2 : rowsTile 63 (rowsV8TableS2 c) = true := by
  unfold rowsV8TableS2 rows47_12
  cases c.granule <;> rfl

theorem rowsTile_v8PageS1 (ns : Bit) : rowsTile 63 (rowsV8PageS1 c ns) = true := by
  unfold rowsV8PageS1 rows47_12
  cases c.granule <;> rfl

theorem rowsTile_v8PageS2 (ns : Bit) : rowsTile 63 (rowsV8PageS2 c ns) = true := by
  unfold rowsV8PageS2 rows47_12
  cases c.granule <;> rfl

/-- The low bound `n` of OAB lies in bits [47:18], so that the RES0 bits `n-1` to 17 are there. -/
theorem rowsTile_v8BlockS1 {n : Nat} (ns : Bit) (hn : 18 ≤ n ∧ n ≤ 47) :
    rowsTile 63 (rowsV8BlockS1 c ns n) = true := by
  obtain ⟨h1, h17⟩ : 1 ≤ n ∧ 17 ≤ n - 1 := by omega
  simp [rowsV8BlockS1, rowsV8LeafS1High, rowsBlock47_12, rowsV8LeafS1Low, row49_48, rowS1Leaf11, rowLeaf9_8,
    rowsTile, hn.2, h1, h17]

theorem rowsTile_v8BlockS2 {n : Nat} (ns : Bit) (hn : 18 ≤ n ∧ n ≤ 47) :
    rowsTile 63 (rowsV8BlockS2 c ns n) = true := by
  obtain ⟨h1, h17⟩ : 1 ≤ n ∧ 17 ≤ n - 1 := by omega
  simp [rowsV8BlockS2, rowsV8LeafS2High, rowsBlock47_12, rowsV8LeafS2Low, row49_48, rowLeaf9_8, rowsTile,
    hn.2, h1, h17]

theorem rowsTile_v9TableS1 (skl : BitVec 2) : rowsTile 127 (rowsV9TableS1 c skl) = true := by
  unfold rowsV9TableS1 rows55_12
  cases c.granule <;> rfl

theorem rowsTile_v9TableS2 (skl : BitVec 2) : rowsTile 127 (rowsV9TableS2 c skl) = true := by
  unfold rowsV9TableS2 rows55_12
  cases c.granule <;> rfl

theorem rowsTile_v9LeafS1 (skl : BitVec 2) : rowsTile 127 (rowsV9LeafS1 c skl) = true := by
  unfold rowsV9LeafS1 rows55_12
  cases c.granule <;> rfl

theorem rowsTile_v9LeafS2 (skl : BitVec 2) : rowsTile 127 (rowsV9LeafS2 c skl) = true := by
  unfold rowsV9LeafS2 rows55_12
  cases c.granule <;> rfl

theorem rowsTile_v9Invalid (v : Bit) : rowsTile 127 (rowsV9Invalid c v) = true := by
  unfold rowsV9Invalid
  split <;> rfl

end Sys2Proof.Machine
end

section
/-! PROOFS. RES1 occurs in the stage 1 Block and Page formats of VMSAv8-64 only (R71), and no Invalid format
has a RES0 bit (R274): the reports that such a table cannot give. -/

namespace Sys2Proof.Machine

open Sys2Proof

variable (c : Ctx)

section Reports
variable {w : Nat} (d : BitVec w)

@[simp] theorem res1Violation_rows47_12 (f : FieldName) : res1Violation (rows47_12 c f) d = false := by
  unfold rows47_12
  cases c.granule <;> simp

@[simp] theorem res1Violation_rows55_12 (f : FieldName) : res1Violation (rows55_12 c f) d = false := by
  unfold rows55_12
  cases c.granule <;> simp

theorem res1Violation_v8TableS1 : res1Violation (rowsV8TableS1 c) d = false := by
  simp [rowsV8TableS1, rowsV8TableLow, row49_48]

theorem res1Violation_v8TableS2 : res1Violation (rowsV8TableS2 c) d = false := by
  simp [rowsV8TableS2, rowsV8TableLow, row49_48]

@[simp] theorem res1Violation_v8LeafS2High (ns : Bit) : res1Violation (rowsV8LeafS2High c ns) d = false := by
  simp [rowsV8LeafS2High, row49_48]

@[simp] theorem res1Violation_v8LeafS2Low (b : Bool) : res1Violation (rowsV8LeafS2Low c b) d = false := by
  simp [rowsV8LeafS2Low, rowLeaf9_8]

theorem res1Violation_v8BlockS2 (ns : Bit) (n : Nat) : res1Violation (rowsV8BlockS2 c ns n) d = false := by
  simp [rowsV8BlockS2, rowsBlock47_12]

theorem res1Violation_v8PageS2 (ns : Bit) : res1Violation (rowsV8PageS2 c ns) d = false := by
  simp [rowsV8PageS2]

theorem res1Violation_v9TableS1 (skl : BitVec 2) : res1Violation (rowsV9TableS1 c skl) d = false := by
  simp [rowsV9TableS1, rows110_56, rowV9nT]

theorem res1Violation_v9TableS2 (skl : BitVec 2) : res1Violation (rowsV9TableS2 c skl) d = false := by
  simp [rowsV9TableS2, rows110_56, rowV9nT]

theorem res1Violation_v9LeafS1 (skl : BitVec 2) : res1Violation (rowsV9LeafS1 c skl) d = false := by
  simp [rowsV9LeafS1, rows110_56, rowV9nT, rowS1Leaf11]

theorem res1Violation_v9LeafS2 (skl : BitVec 2) : res1Violation (rowsV9LeafS2 c skl) d = false := by
  simp [rowsV9LeafS2, rows110_56, rowV9nT]

theorem noViolation_v8InvalidS1 :
    res0Violation (rowsV8InvalidS1 c) d = false ∧ res1Violation (rowsV8InvalidS1 c) d = false := by
  simp [rowsV8InvalidS1]

theorem noViolation_v8InvalidS2 :
    res0Violation rowsV8InvalidS2 d = false ∧ res1Violation rowsV8InvalidS2 d = false := by
  simp [rowsV8InvalidS2]

theorem noViolation_v8Reserved :
    res0Violation rowsV8Reserved d = false ∧ res1Violation rowsV8Reserved d = false := by
  simp [rowsV8Reserved]

theorem noViolation_v9Invalid (v : Bit) :
    res0Violation (rowsV9Invalid c v) d = false ∧ res1Violation (rowsV9Invalid c v) d = false := by
  unfold rowsV9Invalid
  split <;> simp

end Reports

end Sys2Proof.Machine
end

section
/-! PROOFS. The invariant: every outcome that an instruction latches is coherent, so a step keeps it. -/

namespace Sys2Proof.Machine

open Sys2Proof Sys2Proof.Claims

variable {s t : State} {c : Ctx}

section Coherent
variable {w : Nat} {d : BitVec w} {rows : List Row}

/-- An Invalid outcome has no output address, no next table and no report (R270, R274). -/
theorem coherent_invalid {r : Result} (hr : r.type = .Invalid) (htile : rowsTile r.topBit rows = true)
    (hrep : res0Violation rows d = false ∧ res1Violation rows d = false) :
    (report r rows d .none).coherent = true := by
  cases r with
  | v8Invalid | v9Invalid =>
    simp [report, Decoded.coherent, Decoded.reportsFit, Result.oaFits, Result.tableFits, htile, hrep]
  | _ => cases hr

/-- A Table outcome has no output address and no RES1 report (R71, R270). -/
theorem coherent_table {r : Result} (hr : r.type = .Table) (htile : rowsTile r.topBit rows = true)
    (htable : r.tableFits = true) (hres1 : res1Violation rows d = false) :
    (report r rows d .none).coherent = true := by
  cases r with
  | v8TableS1 | v8TableS2 | v9TableS1 | v9TableS2 =>
    simp [report, Decoded.coherent, Decoded.reportsFit, Result.oaFits, htile, htable, hres1]
  | _ => cases hr

/-- Outside the Invalid formats the one report that a format rules out is RES1 (R71). -/
theorem reportsFit_of_res1 {r : Result} {oa : OutputAddress} (hr : r.type ≠ .Invalid)
    (hres1 : res1Violation rows d = false) : (report r rows d oa).reportsFit = true := by
  cases r <;> simp_all [report, Decoded.reportsFit, Result.type]

/-- A VMSAv8-64 Block or Page outcome: OAB is aligned to `2 ^ n` and the output address continues it (R59). -/
theorem coherent_v8Leaf {r : Result} {oab : BitVec 52} {n : Nat} {nT : Option Bit} {ia : BitVec 64}
    (hr : leafAddrV8 r = some (oab, n, nT)) (htile : rowsTile 63 rows = true) (ha : 2 ^ n ∣ oab.toNat)
    (hrep : (report r rows d (.oa52 (formOA oab n ia))).reportsFit = true) :
    (report r rows d (.oa52 (formOA oab n ia))).coherent = true := by
  obtain ⟨hoa, hlow⟩ := formOA_continues ia ha
  rw [Decoded.coherent, hrep]
  cases r with
  | v8BlockS1 | v8BlockS2 | v8PageS1 | v8PageS2 =>
    cases hr
    simp [report, Result.topBit, Result.oaFits, Result.tableFits, htile, hoa, hlow]
  | _ => cases hr

/-- The output address of a VMSAv9-128 Page is formed at the granule size, and a Block's where its size is
given (R59, R226). -/
theorem oaFits_v9Leaf {r : Result} {m : BitVec 44} (ia : BitVec 64)
    (hr : leafAddrV9 r = some (oabV9 c m, shiftV9 c)) (hpage : r.type = .Page → c.level = 3) :
    r.oaFits (oaV9 c (oabV9 c m) ia) = true := by
  cases r with
  | v9BlockS1 f | v9BlockS2 f =>
    obtain ⟨hoab, hn⟩ : f.OAB = oabV9 c m ∧ f.n = shiftV9 c := by simpa [leafAddrV9] using hr
    cases hs : shiftV9 c <;> simp [Result.oaFits, oaV9, hoab, hn, hs, formOA_ushiftRight]
  | v9PageS1 f | v9PageS2 f =>
    obtain ⟨hoab, hn⟩ : f.OAB = oabV9 c m ∧ f.n = shiftV9 c := by simpa [leafAddrV9] using hr
    have hs : shiftV9 c = some (granuleBits c.granule) := if_pos (hpage rfl)
    simp [Result.oaFits, oaV9, hoab, hn, hs, oabV9, formOA_continues ia (granuleAddrV9_aligned m)]
  | _ => cases hr

/-- A VMSAv9-128 Block or Page outcome: its output address fits and it has no RES1 report (R71). -/
theorem coherent_v9Leaf {r : Result} {m : BitVec 44} {ia : BitVec 64}
    (hr : leafAddrV9 r = some (oabV9 c m, shiftV9 c)) (hpage : r.type = .Page → c.level = 3)
    (htile : rowsTile 127 rows = true) (hres1 : res1Violation rows d = false) :
    (report r rows d (oaV9 c (oabV9 c m) ia)).coherent = true := by
  have hoa := oaFits_v9Leaf ia hr hpage
  cases r with
  | v9BlockS1 f | v9BlockS2 f | v9PageS1 f | v9PageS2 f =>
    simp [report, Decoded.coherent, Decoded.reportsFit, Result.topBit, Result.tableFits, htile, hoa, hres1]
  | _ => cases hr

/-- A next table at an aligned address and at a level of R55 or G4 fits. -/
theorem tableFits_of_nextTable {r : Result}
    (h : ∀ a k l skl, nextTable r = some (a, k, l, skl) → NextTableOf c a k l skl) :
    r.tableFits = true := by
  have hfits {a k l skl} (hn : nextTable r = some (a, k, l, skl)) :
      2 ^ 12 ∣ a.toNat ∧ -1 ≤ l ∧ l ≤ 3 := by
    obtain ⟨ha, -, rfl, hlower, hupper⟩ := h _ _ _ _ hn
    refine ⟨(Nat.pow_dvd_pow 2 (twelve_le_granuleBits _)).trans ha, ?_⟩
    unfold nextLevel
    omega
  cases r with
  | v8TableS1 f | v8TableS2 f | v9TableS1 f | v9TableS2 f =>
    simpa [Result.tableFits, ← dvd_toNat_iff, toNat_setWidth_56, and_assoc, -BitVec.toNat_setWidth]
      using hfits rfl
  | _ => rfl

end Coherent

/-- Every outcome that an instruction latches is coherent, format by format. -/
theorem exec_coherent {i : Instr} {dec : Decoded} (h : exec i s = .next t) (ht : t.output = some dec) :
    dec.coherent = true := by
  have htable : dec.result.tableFits = true :=
    tableFits_of_nextTable fun _ _ _ _ => exec_nextTable h ht
  cases i with
  | v8TableS1 o =>
    cases runFormat_output h ht
    exact coherent_table rfl (rowsTile_v8TableS1 _) htable (res1Violation_v8TableS1 ..)
  | v8TableS2 o =>
    cases runFormat_output h ht
    exact coherent_table rfl (rowsTile_v8TableS2 _) htable (res1Violation_v8TableS2 ..)
  | v9TableS1 o =>
    cases runFormat_output h ht
    exact coherent_table rfl (rowsTile_v9TableS1 ..) htable (res1Violation_v9TableS1 ..)
  | v9TableS2 o =>
    cases runFormat_output h ht
    exact coherent_table rfl (rowsTile_v9TableS2 ..) htable (res1Violation_v9TableS2 ..)
  | v8BlockS1 a hi nt lo =>
    obtain ⟨n, hn, rfl⟩ := runFormatWith_output h ht
    have hb := blockShiftV8_bounds hn
    exact coherent_v8Leaf rfl (rowsTile_v8BlockS1 _ _ hb) (oabBlockV8_aligned (by omega) ..) rfl
  | v8BlockS2 a hi nt lo =>
    obtain ⟨n, hn, rfl⟩ := runFormatWith_output h ht
    have hb := blockShiftV8_bounds hn
    exact coherent_v8Leaf rfl (rowsTile_v8BlockS2 _ _ hb) (oabBlockV8_aligned (by omega) ..)
      (reportsFit_of_res1 nofun (res1Violation_v8BlockS2 ..))
  | v8PageS1 a m =>
    cases runFormat_output h ht
    exact coherent_v8Leaf rfl (rowsTile_v8PageS1 ..) (granuleAddrV8_aligned ..) rfl
  | v8PageS2 a m =>
    cases runFormat_output h ht
    exact coherent_v8Leaf rfl (rowsTile_v8PageS2 ..) (granuleAddrV8_aligned ..)
      (reportsFit_of_res1 nofun (res1Violation_v8PageS2 ..))
  | v9BlockPageS1 o =>
    cases runFormat_output h ht
    exact coherent_v9Leaf (by split <;> rfl) (by split <;> simp [Result.type, *]) (rowsTile_v9LeafS1 ..)
      (res1Violation_v9LeafS1 ..)
  | v9BlockPageS2 o =>
    cases runFormat_output h ht
    exact coherent_v9Leaf (by split <;> rfl) (by split <;> simp [Result.type, *]) (rowsTile_v9LeafS2 ..)
      (res1Violation_v9LeafS2 ..)
  | v8InvalidS1 hi p lo =>
    cases runFormat_output h ht
    exact coherent_invalid rfl rfl (noViolation_v8InvalidS1 ..)
  | v8InvalidS2 hi =>
    cases runFormat_output h ht
    exact coherent_invalid rfl rfl (noViolation_v8InvalidS2 _)
  | v8Reserved hi =>
    cases runFormat_output h ht
    exact coherent_invalid rfl rfl (noViolation_v8Reserved _)
  | v9Invalid hi p lo v =>
    obtain ⟨cause, -, rfl⟩ := runFormatWith_output h ht
    exact coherent_invalid rfl (rowsTile_v9Invalid ..) (noViolation_v9Invalid ..)

/-- Settles O50: a step leaves memory as it is, and the outcome it latches is coherent. -/
theorem stepKeepsTheInvariant : Obligations.StepKeepsTheInvariant := by
  intro s t hinv h
  obtain ⟨bs, i, -, -, he⟩ := step_next h
  obtain ⟨-, dec, rfl⟩ := exec_next he
  unfold State.inv at hinv ⊢
  rw [Bool.and_eq_true] at hinv ⊢
  exact ⟨hinv.1, exec_coherent he rfl⟩

end Sys2Proof.Machine
end

section
/-! PROOFS. Encoding and type determination (R74 to R79): the descriptor of what the decoder answers, and the
format that each type gives. -/

namespace Sys2Proof

open Sys2Proof.Machine Sys2Proof.Claims

variable {c : Ctx}

/-! ### Decoding what the encoder writes -/

/-- Settles O1: the descriptor of a well-formed instruction decodes back to it, format by format. -/
theorem decodeOfEncodeIsIdentity : Obligations.DecodeOfEncodeIsIdentity :=
  fun _ _ hwf => decode_encode hwf

/-! ### Encoding what the decoder answers -/

theorem extract_low_of_bit {w : Nat} {d : BitVec w} {v : Bit} (h : d.getLsbD 0 = v.getLsbD 0) :
    d.extractLsb' 0 1 = v :=
  BitVec.eq_of_getLsbD_eq fun k hk => by
    obtain rfl : k = 0 := by omega
    simpa using h

theorem extract_type_of_bits {d : Desc64} {ty : BitVec 2} (h0 : d.getLsbD 0 = ty.getLsbD 0)
    (h1 : d.getLsbD 1 = ty.getLsbD 1) : d.extractLsb' 0 2 = ty :=
  BitVec.eq_of_getLsbD_eq fun k hk => by
    obtain rfl | rfl : k = 0 ∨ k = 1 := by omega
    · simpa using h0
    · simpa using h1

/-- The low bits that Table D8-48 gives a type (R74). -/
def hasLowBitsOf (d : Desc64) : V8Class → Prop
  | .Invalid => d.extractLsb' 0 1 = 0#1
  | .ReservedInvalid | .Block => d.extractLsb' 0 2 = 0b01#2
  | .Table | .Page => d.extractLsb' 0 2 = 0b11#2

theorem hasLowBitsOf_classifyV8 (c : Ctx) (d : Desc64) : hasLowBitsOf d (classifyV8 c d) := by
  unfold classifyV8
  cases h0 : d.getLsbD 0 with
  | false => exact extract_low_of_bit h0
  | true =>
    cases h1 : d.getLsbD 1 with
    | false =>
      have := extract_type_of_bits (ty := 0b01#2) h0 h1
      by_cases h3 : c.level = 3 <;> simpa [h3, hasLowBitsOf] using this
    | true =>
      have := extract_type_of_bits (ty := 0b11#2) h0 h1
      by_cases h3 : c.level = 3 <;> simpa [h3, hasLowBitsOf] using this

theorem extract_low_of_classifyV9 {d : Desc128}
    (h : classifyV9 c d = .Table ∨ classifyV9 c d = .BlockOrPage) : d.extractLsb' 0 1 = 1#1 := by
  obtain ht | hl := h
  · exact extract_low_of_bit (classifyV9Skl_table_iff.1 ht).1
  · exact extract_low_of_bit (classifyV9Skl_leaf_iff.1 hl).1

/-- The ranges of a format, above the low bits that its type has, make up the descriptor. -/
theorem desc_of_decodeV8 {d : Desc64} {i : Instr} (h : decodeV8 c d = .ok i) : i.desc = .d64 d := by
  have hlow := hasLowBitsOf_classifyV8 c d
  unfold decodeV8 at h
  cases hk : classifyV8 c d with simp only [hk, hasLowBitsOf] at h hlow
  | ReservedInvalid =>
    cases h
    rw [Instr.desc, ← hlow, BitVec.extractLsb'_append_extractLsb'_eq_extractLsb' (by omega)]
    simp
  | Invalid =>
    cases hs : c.stage <;>
      · rw [hs] at h
        cases h
        rw [Instr.desc, ← hlow]
        simp (disch := omega) only [BitVec.extractLsb'_append_extractLsb'_eq_extractLsb']
        simp
  | Table =>
    cases hs : c.stage <;> simp only [hs] at h <;> cases h
    · rw [Instr.desc, V8TableS1Ops.toBits_ofBits d hlow]
    · rw [Instr.desc, V8TableS2Ops.toBits_ofBits d hlow]
  | Page =>
    cases hs : c.stage <;> simp only [hs] at h <;> cases h
    · rw [Instr.desc, V8LeafS1Ops.toBits_ofBits d _ hlow]
    · rw [Instr.desc, V8LeafS2Ops.toBits_ofBits d _ hlow]
  | Block =>
    cases hn : blockShiftV8 c with simp only [hn] at h
    | none => cases h
    | some n =>
      cases hs : c.stage <;> simp only [hs] at h <;> cases h
      · rw [Instr.desc, blockMiddle_ofBits, V8LeafS1Ops.toBits_ofBits d _ hlow]
      · rw [Instr.desc, blockMiddle_ofBits, V8LeafS2Ops.toBits_ofBits d _ hlow]

theorem desc_decodeV9 (c : Ctx) (d : Desc128) : (decodeV9 c d).desc = .d128 d := by
  have hlow := extract_low_of_classifyV9 (c := c) (d := d)
  unfold decodeV9
  cases hk : classifyV9 c d with
  | Invalid cause => simp only [Instr.desc, v9InvalidBits_ofBits]
  | Table =>
    have hlow := hlow (.inl hk)
    cases c.stage
    · simp only [Instr.desc, V9TableS1Ops.toBits_ofBits d hlow]
    · simp only [Instr.desc, V9TableS2Ops.toBits_ofBits d hlow]
  | BlockOrPage =>
    have hlow := hlow (.inr hk)
    cases c.stage
    · simp only [Instr.desc, V9LeafS1Ops.toBits_ofBits d hlow]
    · simp only [Instr.desc, V9LeafS2Ops.toBits_ofBits d hlow]

theorem wf_of_decodeDesc_ok {d : Desc} {i : Instr} (h : decodeDesc c d = .ok i) : c.wf = true := by
  rw [← check_none_iff]
  cases hc : c.check with
  | none => rfl
  | some r => simp [decodeDesc_eq_context_iff.2 hc] at h

/-- The descriptor of what a descriptor decodes to is that descriptor (R79). -/
theorem desc_of_decodeDesc {d : Desc} {i : Instr} (h : decodeDesc c d = .ok i) : i.desc = d := by
  have hw := wf_of_decodeDesc_ok h
  cases d with
  | d64 d => exact desc_of_decodeV8 (decodeDesc_d64_of_wf hw d ▸ h)
  | d128 d =>
    rw [decodeDesc_d128_of_wf hw] at h
    cases h
    exact desc_decodeV9 c d

/-- The bytes of the descriptor read from bytes are those bytes (R52). -/
theorem bytes_of_desc {big : Bool} {sys : System} {bs : List Byte} (h : bs.length = sys.bytes) :
    (sys.desc (bytesValue big bs)).bytes big = bs := by
  have hlt := bytesValue_lt big bs
  have hv := valueBytes_bytesValue big bs
  rw [h] at hlt hv
  cases sys <;>
    · simp only [System.bytes, Nat.reducePow] at hlt
      rw [System.desc, Desc.bytes, BitVec.toNat_ofNat, Nat.mod_eq_of_lt (by simpa using hlt)]
      exact hv

/-- Settles O2: the decoder picks a format that applies, and its ranges are those of the descriptor read. -/
theorem decodedIsWellFormedAndEncodesBack : Obligations.DecodedIsWellFormedAndEncodesBack := by
  intro c bs i h
  refine ⟨wf_of_decode h, ?_⟩
  unfold decode at h
  split at h
  · cases h
  · next hlen =>
    rw [encode, desc_of_decodeDesc h, bytes_of_desc]
    rw [List.length_take]
    omega

/-! ### The format of each type -/

/-- Settles O3: the decoder's branches on bits [1:0] and the level; a Block is refused only where R151 has
no row. -/
theorem v8TypeDetermination : Obligations.V8TypeDetermination := by
  intro c d hw hsys
  rw [decodeDesc_d64_of_wf hw]
  refine ⟨fun h0 => ?_, fun h0 h1 h3 => ?_, fun h0 h1 h3 => ?_, fun h0 h1 h3 => ?_, fun h0 h1 h3 => ?_⟩
  · have hk : classifyV8 c d = .Invalid := classifyV8_invalid (extract_low_of_bit h0)
    cases hs : c.stage <;> simp [decodeV8, hk, hs]
  · have hk := classifyV8_type_01 (c := c) (extract_type_of_bits h0 h1)
    simp [decodeV8, hk, h3]
  · have hk := classifyV8_type_11 (c := c) (extract_type_of_bits h0 h1)
    cases hs : c.stage <;> simp [decodeV8, hk, h3, hs]
  · have hk := classifyV8_type_11 (c := c) (extract_type_of_bits h0 h1)
    cases hs : c.stage <;> simp [decodeV8, hk, h3.ne, hs]
  · have hk := classifyV8_type_01 (c := c) (extract_type_of_bits h0 h1)
    rw [if_neg h3.ne] at hk
    cases hn : blockShiftV8 c with
    | none =>
      have hrow := noBlockRow_of_noV8BlockFormat ((blockShiftV8_eq_none_iff (c.wf_level hw).1 h3).1 hn)
      exact .inr ⟨hrow, by simp [decodeV8, hk, hn]⟩
    | some n =>
      left
      cases hs : c.stage <;> simp [decodeV8, hk, hn, hs]

/-- Settles O4: the decoder's Table and Block or Page branches are the two conditions of R76. -/
theorem v9TypeDetermination : Obligations.V9TypeDetermination := by
  intro c d hw hsys sum tableOk blockOk
  have ht : (d.getLsbD 0 = true ∧ sum < 3 ∧ tableOk = true) ↔ classifyV9 c d = .Table := by
    rw [classifyV9, classifyV9Skl_table_iff, Ctx.v9TableHere, Bool.and_eq_true, decide_eq_true_eq]
  have hl : (d.getLsbD 0 = true ∧ sum = 3 ∧ blockOk = true) ↔ classifyV9 c d = .BlockOrPage := by
    rw [classifyV9, classifyV9Skl_leaf_iff, Ctx.v9LeafHere, Bool.and_eq_true, decide_eq_true_eq]
  simp only [decodeDesc_d128_of_wf hw, ht, hl, decodeV9]
  cases classifyV9 c d with
  | Invalid cause => simp
  | Table => cases c.stage <;> simp
  | BlockOrPage => cases c.stage <;> simp

end Sys2Proof
end

section
/-! PROOFS. A descriptor placed from outside (log entry 2): memory then holds its bytes where the next step
reads. -/

namespace Sys2Proof.Machine

open Sys2Proof Sys2Proof.Claims

variable {s : State}

/-- A stored descriptor is held where it fits in the address space. -/
theorem holds_storeDesc {d : Desc}
    (hroom : s.desc_addr.toNat + (d.bytes s.ctx.big_endian_walk).length ≤ 2 ^ 56) :
    holds (s.storeDesc s.desc_addr.toNat d) (d.bytes s.ctx.big_endian_walk) :=
  ⟨hroom, fun _ hk => Memory.read_writeBytes_inside _ _ _ hk⟩

theorem bytes_le_sixteen (sys : System) : sys.bytes ≤ 16 := by
  cases sys <;> decide

theorem holds_withFetchWord (s : State) (nbits w : Nat) :
    holds (s.withFetchWord nbits w) (((System.ofWidth nbits).desc w).bytes s.ctx.big_endian_walk) := by
  refine holds_storeDesc ?_
  rw [Desc.bytes_length]
  exact (Nat.add_le_add_left (bytes_le_sixteen _) _).trans s.withRoom_fits

/-- Settles O11: the next step decodes the descriptor that memory then holds, in the system of the width. -/
theorem placedDescriptorIsDecodedNext : Obligations.PlacedDescriptorIsDecodedNext := by
  intro s nbits w
  have hstep : step (s.withFetchWord nbits w)
      = outcomeOf (s.withFetchWord nbits w) ((System.ofWidth nbits).desc w) :=
    step_of_holds_desc (isOf_desc _ _) (holds_withFetchWord s nbits w)
  refine ⟨hstep.trans ?_, rfl, s.withFetchWord_ia nbits w⟩
  unfold System.ofWidth
  split <;> rfl

end Sys2Proof.Machine
end

section
/-! PROOFS. The field table of an outcome tiles the descriptor of the system in use (section 2 of
spec/95_test_vectors.md). -/

namespace Sys2Proof.Machine

open Sys2Proof Sys2Proof.Claims

variable {s t : State}

/-- A system's top bit number (R50). -/
def topBitOf : System → Nat
  | .VMSAv8_64 => 63
  | .VMSAv9_128 => 127

/-- An instruction latches a result of the system in use (R79). -/
theorem exec_topBit {i : Instr} {dec : Decoded} (h : exec i s = .next t) (ht : t.output = some dec) :
    dec.result.topBit = topBitOf s.ctx.system := by
  have hsys := (Instr.wf_ctx (exec_next h).1).2
  cases i with
  | v8TableS1 | v8TableS2 | v8PageS1 | v8PageS2 | v8InvalidS1 | v8InvalidS2 | v8Reserved =>
    cases runFormat_output h ht
    rw [isOf_d64_iff.1 hsys]
    rfl
  | v8BlockS1 | v8BlockS2 =>
    obtain ⟨n, -, rfl⟩ := runFormatWith_output h ht
    rw [isOf_d64_iff.1 hsys]
    rfl
  | v9TableS1 | v9TableS2 =>
    cases runFormat_output h ht
    rw [isOf_d128_iff.1 hsys]
    rfl
  | v9BlockPageS1 | v9BlockPageS2 =>
    cases runFormat_output h ht
    rw [isOf_d128_iff.1 hsys, report]
    split <;> rfl
  | v9Invalid =>
    obtain ⟨cause, -, rfl⟩ := runFormatWith_output h ht
    rw [isOf_d128_iff.1 hsys]
    rfl

/-- Settles O44: the rows of a coherent outcome tile its result's descriptor. -/
theorem fieldTablesTileTheDescriptor : Obligations.FieldTablesTileTheDescriptor := by
  intro i s t dec h ht
  have hcoh := exec_coherent h ht
  simp only [Decoded.coherent, Bool.and_eq_true, exec_topBit h ht] at hcoh
  obtain ⟨⟨⟨htile, -⟩, -⟩, -⟩ := hcoh
  exact htile

end Sys2Proof.Machine
end

section
/-! PROOFS. Which bits of a descriptor a field table reads (R70 to R73): two descriptors that agree on the rows
that are neither IGNORED nor RES0 nor RES1 have the same address and the same fields. -/

namespace Sys2Proof.Machine

open Sys2Proof Sys2Proof.Claims

variable {w : Nat} {d d' : BitVec w} {p : BitClass → Bool} {rs rs' : List Row} {c : Ctx}

/-! ### Agreement on the rows of a field table -/

/-- Two descriptors have the same `n` bits from bit `lo` on. -/
def SameBits (d d' : BitVec w) (lo n : Nat) : Prop := d.extractLsb' lo n = d'.extractLsb' lo n

/-- Two descriptors have the same bits in every row that a condition picks. -/
def AgreeRows (p : BitClass → Bool) (rows : List Row) (d d' : BitVec w) : Prop :=
  ∀ r ∈ rows, p r.cls = true → SameBits d d' r.lo (r.hi + 1 - r.lo)

theorem SameBits.of_getLsbD {lo hi : Nat} (h : ∀ k, lo ≤ k → k ≤ hi → d.getLsbD k = d'.getLsbD k) :
    SameBits d d' lo (hi + 1 - lo) :=
  BitVec.eq_of_getLsbD_eq fun k hk => by
    simp only [BitVec.getLsbD_extractLsb', h (lo + k) (by omega) (by omega)]

theorem SameBits.getLsbD {lo n k : Nat} (h : SameBits d d' lo n) (hlo : lo ≤ k) (hhi : k < lo + n) :
    d.getLsbD k = d'.getLsbD k := by
  have := congrArg (BitVec.getLsbD · (k - lo)) h
  simpa [show k - lo < n by omega, show lo + (k - lo) = k by omega] using this

theorem AgreeRows.of_d64 {rows : List Row} {d d' : Desc64} (h : agreeOn p rows (.d64 d) (.d64 d')) :
    AgreeRows p rows d d' :=
  fun r hr hp => .of_getLsbD (h r hr hp)

theorem AgreeRows.of_d128 {rows : List Row} {d d' : Desc128} (h : agreeOn p rows (.d128 d) (.d128 d')) :
    AgreeRows p rows d d' :=
  fun r hr hp => .of_getLsbD (h r hr hp)

@[simp] theorem agreeRows_nil : AgreeRows p [] d d' := by
  simp [AgreeRows]

@[simp] theorem agreeRows_cons {hi lo : Nat} {b : BitClass} :
    AgreeRows p (⟨hi, lo, b⟩ :: rs) d d'
      ↔ (p b = true → SameBits d d' lo (hi + 1 - lo)) ∧ AgreeRows p rs d d' := by
  simp [AgreeRows]

@[simp] theorem agreeRows_append :
    AgreeRows p (rs ++ rs') d d' ↔ AgreeRows p rs d d' ∧ AgreeRows p rs' d d' := by
  simp [AgreeRows, or_imp, forall_and]

/-! ### The classes that are read -/

@[simp] theorem isRead_classIf (q : Bool) (a b : BitClass) :
    isRead (classIf q a b) = bif q then isRead a else isRead b := by
  cases q <;> rfl

@[simp] theorem isRead_bitField (f : FieldName) : isRead (bitField f) = true := rfl
@[simp] theorem isRead_field (f : FieldName) (x y : Nat) : isRead (.field f x y) = true := rfl
@[simp] theorem isRead_software (f : FieldName) (x y : Nat) : isRead (.software f x y) = true := rfl
@[simp] theorem isRead_systemMmu (f : FieldName) (x y : Nat) : isRead (.systemMmu f x y) = true := rfl
@[simp] theorem isRead_typeBit (v : Bool) : isRead (.typeBit v) = true := rfl
@[simp] theorem isRead_noRow : isRead .noRow = true := rfl
@[simp] theorem isRead_res0 : isRead .res0 = false := rfl
@[simp] theorem isRead_res1 : isRead .res1 = false := rfl
@[simp] theorem isRead_ignored : isRead .ignored = false := rfl

/-- Bit [63] of a stage 1 Block or Page is IGNORED in Secure state and RES0 in the Realm EL2 and EL2&0
regimes with NS = 1 (R131, R134). -/
@[simp] theorem isRead_classV8LeafS1Bit63 (ns : Bit) :
    isRead (classV8LeafS1Bit63 c ns)
      = (!decide (c.secstate = .Secure) && !(realmEL2 c && !decide (ns = 0#1))) := by
  unfold classV8LeafS1Bit63 realmEL2
  cases c.secstate with
  | Realm => cases c.regime <;> simp
  | _ => rfl

@[simp] theorem presentIf_inj {α : Type} {q : Bool} {x y : α} :
    presentIf q x = presentIf q y ↔ (q = true → x = y) := by
  cases q <;> simp [presentIf]

/-! ### Ranges made of other ranges -/

theorem SameBits.append {lo mid n m : Nat} (hlow : SameBits d d' lo n) (hmid : mid = lo + n)
    (hhigh : SameBits d d' mid m) : SameBits d d' lo (m + n) := by
  unfold SameBits at hlow hhigh ⊢
  rw [← BitVec.extractLsb'_append_extractLsb'_eq_extractLsb' hmid, hlow, hhigh,
    BitVec.extractLsb'_append_extractLsb'_eq_extractLsb' hmid]

/-- A range inside a range. -/
theorem extract_extract (d : BitVec w) {lo n a m : Nat} (h : a + m ≤ n) :
    (d.extractLsb' lo n).extractLsb' a m = d.extractLsb' (lo + a) m :=
  BitVec.eq_of_getLsbD_eq fun k hk => by
    simp [hk, show a + k < n by omega, Nat.add_assoc]

/-! ### Addresses -/

/-- The address in a VMSAv8-64 Table or Page descriptor is read from its address rows (R104, R150). -/
theorem granuleAddrV8_congr {d d' : Desc64} {f : FieldName} (h48 : ds52 c = true → SameBits d d' 48 2)
    (hmid : AgreeRows isRead (rows47_12 c f) d d') (h8 : ds52 c = true → SameBits d d' 8 2) :
    granuleAddrV8 c (d.extractLsb' 48 2) (d.extractLsb' 12 36) (d.extractLsb' 8 2)
      = granuleAddrV8 c (d'.extractLsb' 48 2) (d'.extractLsb' 12 36) (d'.extractLsb' 8 2) := by
  unfold rows47_12 at hmid
  unfold granuleAddrV8
  simp (disch := omega) only [extract_extract]
  cases hg : c.granule with
  | G4K => cases hds : c.DS <;> simp_all [ds52, SameBits]
  | G16K => cases hds : c.DS <;> simp_all [ds52, SameBits]
  | G64K => cases hlpa : c.FEAT_LPA <;> simp_all [SameBits]

/-- The bits above the low bound `n` of a Block's OAB. -/
theorem block_high_congr {d d' : Desc64} {n : Nat} (hn : 17 ≤ n ∧ n ≤ 47) (h : SameBits d d' n (48 - n)) :
    ((d.extractLsb' 17 31 ++ 0#17 : BitVec 48) >>> n) <<< n
      = ((d'.extractLsb' 17 31 ++ 0#17 : BitVec 48) >>> n) <<< n := by
  refine BitVec.eq_of_getLsbD_eq fun k hk => ?_
  rcases lt_or_ge k n with hlt | hge
  · simp [hlt]
  · have hbit : d.getLsbD k = d'.getLsbD k := h.getLsbD hge (by omega)
    simp only [BitVec.getLsbD_shiftLeft, BitVec.getLsbD_ushiftRight, Nat.add_sub_cancel' hge,
      BitVec.getLsbD_append, BitVec.getLsbD_extractLsb', show ¬ k < 17 by omega, if_false,
      show 17 + (k - 17) = k by omega, hbit]

/-- The OAB of a Block descriptor is read from its address rows (R151). -/
theorem oabBlockV8_congr {d d' : Desc64} {n : Nat} (hn : 17 ≤ n ∧ n ≤ 47)
    (h48 : ds52 c = true → SameBits d d' 48 2) (hmid : AgreeRows isRead (rowsBlock47_12 c n) d d')
    (h8 : ds52 c = true → SameBits d d' 8 2) :
    oabBlockV8 c n (d.extractLsb' 48 2) (d.extractLsb' 17 31) (d.extractLsb' 12 4) (d.extractLsb' 8 2)
      = oabBlockV8 c n (d'.extractLsb' 48 2) (d'.extractLsb' 17 31) (d'.extractLsb' 12 4)
          (d'.extractLsb' 8 2) := by
  obtain ⟨hhigh, -, h12⟩ := by simpa [rowsBlock47_12] using hmid
  unfold oabBlockV8 blockHi4
  rw [block_high_congr hn hhigh]
  cases hg : c.granule with
  | G4K | G16K => cases hds : c.DS <;> simp_all [ds52, SameBits]
  | G64K => cases hlpa : c.FEAT_LPA <;> simp_all [lpa64, SameBits]

/-- The address in a valid VMSAv9-128 descriptor is read from its address rows (R194, R226). -/
theorem granuleAddrV9_congr {d d' : Desc128} {f : FieldName} (h : AgreeRows isRead (rows55_12 c f) d d') :
    granuleAddrV9 c (d.extractLsb' 12 44) = granuleAddrV9 c (d'.extractLsb' 12 44) := by
  unfold rows55_12 at h
  unfold granuleAddrV9
  simp (disch := omega) only [extract_extract]
  cases hg : c.granule <;> simp_all [SameBits]

end Sys2Proof.Machine
end

section
/-! PROOFS. The fields of two descriptors that agree on the rows that are read, format by format: each row is a
rule that rewrites its bits of one descriptor to those of the other, under the condition that it is read. -/

namespace Sys2Proof.Machine

open Sys2Proof Sys2Proof.Claims

variable {c : Ctx}

theorem ite_inj_iff {α : Type} {q : Prop} [Decidable q] {x x' y y' : α} :
    (if q then x else y) = (if q then x' else y') ↔ (q → x = x') ∧ (¬ q → y = y') := by
  by_cases h : q <;> simp [h]

/-- A field under a condition of the context and one of the descriptor. -/
theorem presentIf_and_inj_iff {α : Type} {q : Bool} {r r' : Prop} [Decidable r] [Decidable r'] {x y : α} :
    presentIf (q && decide r) x = presentIf (q && decide r') y
      ↔ (q = true → (r ↔ r') ∧ (r → x = y)) := by
  by_cases hr : r <;> by_cases hr' : r' <;> cases q <;> simp [presentIf, hr, hr']

/-! ### VMSAv8-64 -/

section V8
variable {d d' : Desc64}

theorem fieldsV8TableS1_congr (h : AgreeRows isRead (rowsV8TableS1 c) d d') :
    fieldsV8TableS1 c (.ofBits d) = fieldsV8TableS1 c (.ofBits d') := by
  obtain ⟨h63, h61, h60, h59, h52, h48, hmid, h10, h8, -⟩ := by
    simpa [rowsV8TableS1, row49_48, rowsV8TableLow] using h
  have haddr := granuleAddrV8_congr h48 hmid h8
  unfold SameBits at *
  simp +contextual [fieldsV8TableS1, V8TableS1Ops.ofBits, nltaV8, *]

theorem fieldsV8TableS2_congr (h : AgreeRows isRead (rowsV8TableS2 c) d d') :
    fieldsV8TableS2 c (.ofBits d) = fieldsV8TableS2 c (.ofBits d') := by
  obtain ⟨h48, hmid, h10, h8, -⟩ := by
    simpa [rowsV8TableS2, row49_48, rowsV8TableLow] using h
  have haddr := granuleAddrV8_congr h48 hmid h8
  unfold SameBits at *
  simp +contextual [fieldsV8TableS2, V8TableS2Ops.ofBits, nltaV8, *]

/-- Bit [63] of a stage 1 Block or Page, where it is the software field or AMEC (R134). -/
theorem v8LeafS1_bit63_congr {ns : Bit} (h : AgreeRows isRead (rowsV8LeafS1High c ns) d d') :
    (c.secstate = .NonSecure ∨ realmEL1 c = true → SameBits d d' 63 1)
      ∧ (realmEL2 c = true → ns = 0#1 → SameBits d d' 63 1) := by
  obtain ⟨h63, -⟩ := by simpa [rowsV8LeafS1High] using h
  refine ⟨?_, fun hr hns => h63 (by simp_all [realmEL2]) (.inr hns)⟩
  rintro (hs | hs)
  · exact h63 (by simp [hs]) (.inl (by simp [realmEL2, hs]))
  · obtain ⟨hsec, hreg⟩ : c.secstate = .Realm ∧ c.regime = .EL1_0 := by simpa [realmEL1] using hs
    exact h63 (by simp [hsec]) (.inl (by simp [realmEL2, hreg]))

theorem fieldsV8LeafS1_congr {b : Bool} {oab oab' : BitVec 52} {n : Nat} {nT nT' : Option Bit}
    (hhigh : AgreeRows isRead (rowsV8LeafS1High c (d.extractLsb' 5 1)) d d')
    (hlow : AgreeRows isRead (rowsV8LeafS1Low c b) d d') (hoab : oab = oab') (hnT : nT = nT') :
    fieldsV8LeafS1 c (.ofBits d) oab n nT = fieldsV8LeafS1 c (.ofBits d') oab' n nT' := by
  obtain ⟨hsw63, hAMEC⟩ := v8LeafS1_bit63_congr hhigh
  obtain ⟨-, h62, h61, h60, h59, h55, h54, h53, h52, h51, h50, -⟩ := by
    simpa [rowsV8LeafS1High, row49_48] using hhigh
  obtain ⟨h11, h10, h8, h7, h6, h5, h2, -⟩ := by
    simpa [rowsV8LeafS1Low, rowS1Leaf11, rowLeaf9_8] using hlow
  have h62_60 : c.s1_overlay = true → SameBits d d' 60 3 := fun ho =>
    ((h60 (.inl ho)).append rfl (h61 (.inl ho))).append rfl (h62 (.inl ho))
  have hns : realmEL2 c = true → SameBits d d' 5 1 := fun hr => h5 (by simp [nsPresent, hr])
  clear hhigh hlow
  unfold SameBits at *
  unfold V8LeafS1Ops.ofBits
  simp only [fieldsV8LeafS1, V8LeafS1.mk.injEq, presentIf_and_inj_iff]
  simp +contextual [extract_extract, ite_inj_iff, nsePresent, ngPresent, *]

theorem fieldsV8LeafS2_congr {b : Bool} {oab oab' : BitVec 52} {n : Nat} {nT nT' : Option Bit}
    (hhigh : AgreeRows isRead (rowsV8LeafS2High c (d.extractLsb' 55 1)) d d')
    (hlow : AgreeRows isRead (rowsV8LeafS2Low c b) d d') (hoab : oab = oab') (hnT : nT = nT') :
    fieldsV8LeafS2 c (.ofBits d) oab n nT = fieldsV8LeafS2 c (.ofBits d') oab' n nT' := by
  obtain ⟨h63, h62, h61, h60, h59, h58, h56, h55, h54, h53, h52, h51, -⟩ := by
    simpa [rowsV8LeafS2High, row49_48] using hhigh
  obtain ⟨h11, h10, h8, h7, h6, h5, h2, -⟩ := by
    simpa [rowsV8LeafS2Low, rowLeaf9_8] using hlow
  have h62_60 : SameBits d d' 60 3 := (h60.append rfl h61).append rfl h62
  clear hhigh hlow
  unfold SameBits at *
  unfold V8LeafS2Ops.ofBits
  simp only [fieldsV8LeafS2, V8LeafS2.mk.injEq, presentIf_and_inj_iff]
  simp +contextual [extract_extract, *]

end V8

/-! ### VMSAv9-128: SKL is rewritten first, since it also decides whether nT is present -/

section V9
variable {d d' : Desc128}

theorem fieldsV9TableS1_congr (h : AgreeRows isRead (rowsV9TableS1 c (d.extractLsb' 109 2)) d d') :
    fieldsV9TableS1 c (.ofBits d) = fieldsV9TableS1 c (.ofBits d') := by
  obtain ⟨h127, h114, h112, h109, h91, hmid, h10, h6, -⟩ := by
    simpa [rowsV9TableS1, rows110_56, rowV9nT] using h
  have haddr := granuleAddrV9_congr hmid
  unfold SameBits at *
  unfold V9TableS1Ops.ofBits fieldsV9TableS1
  rw [h109]
  simp +contextual [nltaV9, *]

theorem fieldsV9TableS2_congr (h : AgreeRows isRead (rowsV9TableS2 c (d.extractLsb' 109 2)) d d') :
    fieldsV9TableS2 c (.ofBits d) = fieldsV9TableS2 c (.ofBits d') := by
  obtain ⟨h109, h91, hmid, h10, h6, -⟩ := by
    simpa [rowsV9TableS2, rows110_56, rowV9nT] using h
  have haddr := granuleAddrV9_congr hmid
  unfold SameBits at *
  unfold V9TableS2Ops.ofBits fieldsV9TableS2
  rw [h109]
  simp +contextual [nltaV9, *]

theorem fieldsV9LeafS1_congr (h : AgreeRows isRead (rowsV9LeafS1 c (d.extractLsb' 109 2)) d d') :
    fieldsV9LeafS1 c (.ofBits d) = fieldsV9LeafS1 c (.ofBits d') := by
  obtain ⟨h127, h124, h115, h114, h113, h111, h109, h91, hmid, h11, h10, h8, h7, h6, h5, h2, -⟩ := by
    simpa [rowsV9LeafS1, rows110_56, rowV9nT, rowS1Leaf11] using h
  have haddr := granuleAddrV9_congr hmid
  unfold SameBits at *
  unfold V9LeafS1Ops.ofBits fieldsV9LeafS1
  rw [h109]
  simp +contextual [oabV9, nsePresent, ngPresent, *]

theorem fieldsV9LeafS2_congr (h : AgreeRows isRead (rowsV9LeafS2 c (d.extractLsb' 109 2)) d d') :
    fieldsV9LeafS2 c (.ofBits d) = fieldsV9LeafS2 c (.ofBits d') := by
  obtain ⟨h127, h124, h115, h114, h111, h109, h91, hmid, h11, h10, h8, h7, h6, h5, h2, -⟩ := by
    simpa [rowsV9LeafS2, rows110_56, rowV9nT] using h
  have haddr := granuleAddrV9_congr hmid
  unfold SameBits at *
  unfold V9LeafS2Ops.ofBits fieldsV9LeafS2
  rw [h109]
  simp +contextual [oabV9, *]

end V9

end Sys2Proof.Machine
end

section
/-! PROOFS. The outcomes of two descriptors that agree on the rows that are read, format by format: the second
decodes to the same format, which yields the same type, fields, field table and output address. -/

namespace Sys2Proof.Machine

open Sys2Proof Sys2Proof.Claims

variable {s t : State} {c : Ctx}

/-- Two outcomes with the same type and fields, field table and output address; their reports may differ. -/
structure SameReading (dec dec' : Decoded) : Prop where
  result : dec.result = dec'.result
  rows : dec.rows = dec'.rows
  oa : dec.oa = dec'.oa

theorem SameReading.report {w : Nat} {r r' : Result} {rows rows' : List Row} {d d' : BitVec w}
    {oa oa' : OutputAddress} (hr : r = r') (hrows : rows = rows') (hoa : oa = oa') :
    SameReading (report r rows d oa) (report r' rows' d' oa') :=
  ⟨hr, hrows, hoa⟩

/-- Whatever the instruction latches reads the same as the outcome. -/
def LatchesSame (s : State) (dec : Decoded) (i : Instr) : Prop :=
  ∀ t dec', exec i s = .next t → t.output = some dec' → SameReading dec dec'

theorem LatchesSame.self {i : Instr} {dec : Decoded} (h : exec i s = .next t) (ht : t.output = some dec) :
    LatchesSame s dec i := by
  intro t' dec' h' ht'
  cases h.symm.trans h'
  cases ht.symm.trans ht'
  exact ⟨rfl, rfl, rfl⟩

theorem LatchesSame.of_runFormat {i : Instr} {p : Bool} {dec dec' : Decoded}
    (hexec : exec i s = s.runFormat p dec') (h : SameReading dec dec') : LatchesSame s dec i := by
  intro t out hout ht
  rw [hexec] at hout
  cases runFormat_output hout ht
  exact h

theorem LatchesSame.of_runFormatWith {α : Type} {i : Instr} {p : Bool} {x : Option α} {v : α} {why : Refusal}
    {dec : Decoded} {f : α → Decoded} (hexec : exec i s = s.runFormatWith p x why f) (hx : x = some v)
    (h : SameReading dec (f v)) : LatchesSame s dec i := by
  intro t out hout ht
  rw [hexec] at hout
  obtain ⟨v', hv, rfl⟩ := runFormatWith_output hout ht
  cases hx.symm.trans hv
  exact h

/-! ### Type determination -/

section Types
variable {w : Nat} {rows : List Row}

theorem AgreeRows.typeBit {d d' : BitVec w} {k : Nat} {v : Bool} (h : AgreeRows isRead rows d d')
    (hr : ⟨k, k, .typeBit v⟩ ∈ rows) : d.getLsbD k = d'.getLsbD k :=
  (h _ hr rfl).getLsbD (Nat.le_refl k) (by simp)

theorem AgreeRows.type_v8 {d d' : Desc64} (a b : Bool) (h : AgreeRows isRead rows d d')
    (hr : ⟨1, 1, .typeBit a⟩ ∈ rows ∧ ⟨0, 0, .typeBit b⟩ ∈ rows) : classifyV8 c d = classifyV8 c d' := by
  unfold classifyV8
  rw [h.typeBit hr.1, h.typeBit hr.2]

theorem AgreeRows.skl {d d' : Desc128} (h : AgreeRows isRead rows d d')
    (hr : ⟨110, 109, .field .SKL 1 0⟩ ∈ rows) : d.extractLsb' 109 2 = d'.extractLsb' 109 2 :=
  h _ hr rfl

theorem AgreeRows.type_v9 {d d' : Desc128} (h : AgreeRows isRead rows d d')
    (hr : ⟨110, 109, .field .SKL 1 0⟩ ∈ rows ∧ ⟨0, 0, .typeBit true⟩ ∈ rows) :
    classifyV9 c d = classifyV9 c d' := by
  unfold classifyV9
  rw [h.typeBit hr.2, h.skl hr.1]

end Types

/-! ### VMSAv8-64 Block and Page descriptors -/

section V8Leaf
variable {d d' : Desc64} {b : Bool}

/-- NS selects the class of bit [63] only where it is read itself (R134). -/
theorem rowsV8LeafS1High_congr (h : AgreeRows isRead (rowsV8LeafS1Low c b) d d') :
    rowsV8LeafS1High c (d.extractLsb' 5 1) = rowsV8LeafS1High c (d'.extractLsb' 5 1) := by
  obtain ⟨-, -, -, -, -, h5, -⟩ := by simpa [rowsV8LeafS1Low, rowS1Leaf11, rowLeaf9_8] using h
  cases hr : realmEL2 c with
  | true =>
    have hns : d.extractLsb' 5 1 = d'.extractLsb' 5 1 := h5 (by simp [nsPresent, hr])
    rw [hns]
  | false =>
    have hclass (ns ns' : Bit) : classV8LeafS1Bit63 c ns = classV8LeafS1Bit63 c ns' := by
      unfold classV8LeafS1Bit63
      unfold realmEL2 at hr
      cases hs : c.secstate <;> cases hg : c.regime <;> simp_all
    unfold rowsV8LeafS1High
    rw [hclass]

theorem rowsV8LeafS2High_congr (h : AgreeRows isRead (rowsV8LeafS2High c (d.extractLsb' 55 1)) d d') :
    rowsV8LeafS2High c (d.extractLsb' 55 1) = rowsV8LeafS2High c (d'.extractLsb' 55 1) := by
  obtain ⟨-, -, -, -, -, -, -, h55, -⟩ := by simpa [rowsV8LeafS2High, row49_48] using h
  by_cases hr : c.secstate = .Realm
  · have hns : d.extractLsb' 55 1 = d'.extractLsb' 55 1 := h55 hr
    rw [hns]
  · unfold rowsV8LeafS2High
    simp [hr, classIf]

/-- The address bits outside [47:12] of a Block or Page are read with the 52-bit layout of DS (R150, R151). -/
theorem AgreeRows.leafAddrBits {high low : List Row} (hhigh : AgreeRows isRead high d d')
    (hlow : AgreeRows isRead low d d') (hr : row49_48 c .OAB ∈ high ∧ rowLeaf9_8 c ∈ low) :
    (ds52 c = true → SameBits d d' 48 2) ∧ (ds52 c = true → SameBits d d' 8 2) :=
  ⟨fun hds => hhigh _ hr.1 (by simp [row49_48, hds]), fun _ => hlow _ hr.2 (by simp [rowLeaf9_8])⟩

theorem v8LeafS1_addrBits {ns : Bit} (hhigh : AgreeRows isRead (rowsV8LeafS1High c ns) d d')
    (hlow : AgreeRows isRead (rowsV8LeafS1Low c b) d d') :
    (ds52 c = true → SameBits d d' 48 2) ∧ (ds52 c = true → SameBits d d' 8 2) :=
  hhigh.leafAddrBits hlow (by simp [rowsV8LeafS1High, rowsV8LeafS1Low])

theorem v8LeafS2_addrBits {ns : Bit} (hhigh : AgreeRows isRead (rowsV8LeafS2High c ns) d d')
    (hlow : AgreeRows isRead (rowsV8LeafS2Low c b) d d') :
    (ds52 c = true → SameBits d d' 48 2) ∧ (ds52 c = true → SameBits d d' 8 2) :=
  hhigh.leafAddrBits hlow (by simp [rowsV8LeafS2High, rowsV8LeafS2Low])

/-- nT of a Block is read where FEAT_BBML1 gives it (R132, R157). -/
theorem block_nT_congr {n : Nat} (h : AgreeRows isRead (rowsBlock47_12 c n) d d') :
    presentIf c.FEAT_BBML1 (d.extractLsb' 16 1) = presentIf c.FEAT_BBML1 (d'.extractLsb' 16 1) := by
  obtain ⟨-, h16, -⟩ := by simpa [rowsBlock47_12] using h
  exact presentIf_inj.2 h16

theorem oa52_congr {oab oab' : BitVec 52} (h : oab = oab') (n : Nat) (ia : BitVec 64) :
    OutputAddress.oa52 (formOA oab n ia) = .oa52 (formOA oab' n ia) := by
  rw [h]

end V8Leaf

/-! ### The formats, by the type of the descriptor -/

section V8
variable {d d' : Desc64} {i : Instr} {dec : Decoded}

/-- A descriptor that has the type bit of an Invalid one is Invalid (R74). -/
theorem AgreeRows.invalid_v8 {rows : List Row} (hk : classifyV8 c d = .Invalid)
    (h : AgreeRows isRead rows d d') (hr : ⟨0, 0, .typeBit false⟩ ∈ rows) : classifyV8 c d' = .Invalid := by
  have hlow : hasLowBitsOf d .Invalid := hk ▸ hasLowBitsOf_classifyV8 c d
  exact classifyV8_invalid
    (extract_low_of_bit ((h.typeBit hr).symm.trans (getLsbD_zero_of_low hlow)))

theorem exists_latchesSame_v8Invalid (hk : classifyV8 s.ctx d = .Invalid) (hi : decodeV8 s.ctx d = .ok i)
    (h : exec i s = .next t) (ht : t.output = some dec) (hag : AgreeRows isRead dec.rows d d') :
    ∃ i', decodeV8 s.ctx d' = .ok i' ∧ LatchesSame s dec i' := by
  unfold decodeV8 at hi ⊢
  cases hs : s.ctx.stage with (simp only [hk, hs] at hi; cases hi; cases runFormat_output h ht)
  | S1 =>
    rw [hag.invalid_v8 hk (by simp [report, rowsV8InvalidS1])]
    obtain ⟨h52, -⟩ := by simpa [report, rowsV8InvalidS1] using hag
    exact ⟨_, rfl, .of_runFormat rfl
      (.report (congrArg (Result.v8Invalid · false) (presentIf_inj.2 h52)) rfl rfl)⟩
  | S2 =>
    rw [hag.invalid_v8 hk (by simp [report, rowsV8InvalidS2])]
    exact ⟨_, rfl, .of_runFormat rfl (.report rfl rfl rfl)⟩

theorem exists_latchesSame_v8Reserved (hk : classifyV8 s.ctx d = .ReservedInvalid)
    (hi : decodeV8 s.ctx d = .ok i) (h : exec i s = .next t) (ht : t.output = some dec)
    (hag : AgreeRows isRead dec.rows d d') : ∃ i', decodeV8 s.ctx d' = .ok i' ∧ LatchesSame s dec i' := by
  unfold decodeV8 at hi ⊢
  simp only [hk] at hi
  cases hi
  cases runFormat_output h ht
  rw [← hag.type_v8 false true (by simp [report, rowsV8Reserved]), hk]
  exact ⟨_, rfl, .of_runFormat rfl (.report rfl rfl rfl)⟩

theorem exists_latchesSame_v8Table (hk : classifyV8 s.ctx d = .Table) (hi : decodeV8 s.ctx d = .ok i)
    (h : exec i s = .next t) (ht : t.output = some dec) (hag : AgreeRows isRead dec.rows d d') :
    ∃ i', decodeV8 s.ctx d' = .ok i' ∧ LatchesSame s dec i' := by
  unfold decodeV8 at hi ⊢
  cases hs : s.ctx.stage with (simp only [hk, hs] at hi; cases hi; cases runFormat_output h ht)
  | S1 =>
    rw [← hag.type_v8 true true (by simp [report, rowsV8TableS1, rowsV8TableLow]), hk]
    exact ⟨_, rfl, .of_runFormat rfl (.report (congrArg _ (fieldsV8TableS1_congr hag)) rfl rfl)⟩
  | S2 =>
    rw [← hag.type_v8 true true (by simp [report, rowsV8TableS2, rowsV8TableLow]), hk]
    exact ⟨_, rfl, .of_runFormat rfl (.report (congrArg _ (fieldsV8TableS2_congr hag)) rfl rfl)⟩

theorem exists_latchesSame_v8Page (hk : classifyV8 s.ctx d = .Page) (hi : decodeV8 s.ctx d = .ok i)
    (h : exec i s = .next t) (ht : t.output = some dec) (hag : AgreeRows isRead dec.rows d d') :
    ∃ i', decodeV8 s.ctx d' = .ok i' ∧ LatchesSame s dec i' := by
  unfold decodeV8 at hi ⊢
  cases hs : s.ctx.stage with (simp only [hk, hs] at hi; cases hi; cases runFormat_output h ht)
  | S1 =>
    rw [← hag.type_v8 true true (by simp [report, rowsV8PageS1, rowsV8LeafS1Low]), hk]
    obtain ⟨⟨hhigh, hmid⟩, hlow⟩ := by simpa only [report, rowsV8PageS1, agreeRows_append] using hag
    obtain ⟨h48, h8⟩ := v8LeafS1_addrBits hhigh hlow
    have hoab := granuleAddrV8_congr h48 hmid h8
    exact ⟨_, rfl, .of_runFormat rfl (.report (congrArg _ (fieldsV8LeafS1_congr hhigh hlow hoab rfl))
      (congrArg (· ++ _ ++ _) (rowsV8LeafS1High_congr hlow)) (oa52_congr hoab _ _))⟩
  | S2 =>
    rw [← hag.type_v8 true true (by simp [report, rowsV8PageS2, rowsV8LeafS2Low]), hk]
    obtain ⟨⟨hhigh, hmid⟩, hlow⟩ := by simpa only [report, rowsV8PageS2, agreeRows_append] using hag
    obtain ⟨h48, h8⟩ := v8LeafS2_addrBits hhigh hlow
    have hoab := granuleAddrV8_congr h48 hmid h8
    exact ⟨_, rfl, .of_runFormat rfl (.report (congrArg _ (fieldsV8LeafS2_congr hhigh hlow hoab rfl))
      (congrArg (· ++ _ ++ _) (rowsV8LeafS2High_congr hhigh)) (oa52_congr hoab _ _))⟩

theorem exists_latchesSame_v8Block (hk : classifyV8 s.ctx d = .Block) (hi : decodeV8 s.ctx d = .ok i)
    (h : exec i s = .next t) (ht : t.output = some dec) (hag : AgreeRows isRead dec.rows d d') :
    ∃ i', decodeV8 s.ctx d' = .ok i' ∧ LatchesSame s dec i' := by
  unfold decodeV8 at hi ⊢
  obtain ⟨n, hn⟩ : ∃ n, blockShiftV8 s.ctx = some n :=
    Option.ne_none_iff_exists'.1 fun hn => by simp [hk, hn] at hi
  have hbound : 17 ≤ n ∧ n ≤ 47 := by
    have := blockShiftV8_bounds hn
    omega
  cases hs : s.ctx.stage with (
    simp only [hk, hn, hs] at hi
    cases hi
    obtain ⟨n', hn', rfl⟩ := runFormatWith_output h ht
    cases hn.symm.trans hn')
  | S1 =>
    rw [← hag.type_v8 false true (by simp [report, rowsV8BlockS1, rowsV8LeafS1Low]), hk, hn]
    obtain ⟨⟨hhigh, hmid⟩, hlow⟩ := by simpa only [report, rowsV8BlockS1, agreeRows_append] using hag
    obtain ⟨h48, h8⟩ := v8LeafS1_addrBits hhigh hlow
    have hoab := oabBlockV8_congr hbound h48 hmid h8
    have hfields := fieldsV8LeafS1_congr (n := n) hhigh hlow hoab (block_nT_congr hmid)
    refine ⟨_, rfl, .of_runFormatWith rfl hn ?_⟩
    exact .report (congrArg _ hfields) (congrArg (· ++ _ ++ _) (rowsV8LeafS1High_congr hlow))
      (oa52_congr hoab _ _)
  | S2 =>
    rw [← hag.type_v8 false true (by simp [report, rowsV8BlockS2, rowsV8LeafS2Low]), hk, hn]
    obtain ⟨⟨hhigh, hmid⟩, hlow⟩ := by simpa only [report, rowsV8BlockS2, agreeRows_append] using hag
    obtain ⟨h48, h8⟩ := v8LeafS2_addrBits hhigh hlow
    have hoab := oabBlockV8_congr hbound h48 hmid h8
    have hfields := fieldsV8LeafS2_congr (n := n) hhigh hlow hoab (block_nT_congr hmid)
    refine ⟨_, rfl, .of_runFormatWith rfl hn ?_⟩
    exact .report (congrArg _ hfields) (congrArg (· ++ _ ++ _) (rowsV8LeafS2High_congr hhigh))
      (oa52_congr hoab _ _)

theorem exists_latchesSame_v8 (hi : decodeV8 s.ctx d = .ok i) (h : exec i s = .next t)
    (ht : t.output = some dec) (hag : AgreeRows isRead dec.rows d d') :
    ∃ i', decodeV8 s.ctx d' = .ok i' ∧ LatchesSame s dec i' := by
  cases hk : classifyV8 s.ctx d with
  | Invalid => exact exists_latchesSame_v8Invalid hk hi h ht hag
  | ReservedInvalid => exact exists_latchesSame_v8Reserved hk hi h ht hag
  | Table => exact exists_latchesSame_v8Table hk hi h ht hag
  | Block => exact exists_latchesSame_v8Block hk hi h ht hag
  | Page => exact exists_latchesSame_v8Page hk hi h ht hag

end V8

section V9
variable {d d' : Desc128} {dec : Decoded}

theorem latchesSame_v9Table (hk : classifyV9 s.ctx d = .Table) (h : exec (decodeV9 s.ctx d) s = .next t)
    (ht : t.output = some dec) (hag : AgreeRows isRead dec.rows d d') :
    LatchesSame s dec (decodeV9 s.ctx d') := by
  unfold decodeV9 at h ⊢
  cases hs : s.ctx.stage with (simp only [hk, hs] at h; cases runFormat_output h ht)
  | S1 =>
    rw [← hag.type_v9 (by simp [report, rowsV9TableS1, rows110_56]), hk]
    have hskl := hag.skl (by simp [report, rowsV9TableS1, rows110_56])
    exact .of_runFormat rfl (.report (congrArg _ (fieldsV9TableS1_congr hag)) (congrArg _ hskl) rfl)
  | S2 =>
    rw [← hag.type_v9 (by simp [report, rowsV9TableS2, rows110_56]), hk]
    have hskl := hag.skl (by simp [report, rowsV9TableS2, rows110_56])
    exact .of_runFormat rfl (.report (congrArg _ (fieldsV9TableS2_congr hag)) (congrArg _ hskl) rfl)

theorem latchesSame_v9Leaf (hk : classifyV9 s.ctx d = .BlockOrPage) (h : exec (decodeV9 s.ctx d) s = .next t)
    (ht : t.output = some dec) (hag : AgreeRows isRead dec.rows d d') :
    LatchesSame s dec (decodeV9 s.ctx d') := by
  unfold decodeV9 at h ⊢
  cases hs : s.ctx.stage with (simp only [hk, hs] at h; cases runFormat_output h ht)
  | S1 =>
    rw [← hag.type_v9 (by simp [report, rowsV9LeafS1, rows110_56]), hk]
    have hskl := hag.skl (by simp [report, rowsV9LeafS1, rows110_56])
    have hf := fieldsV9LeafS1_congr hag
    exact .of_runFormat rfl (.report (by simp only [hf]) (congrArg _ hskl) (by simp only [hf]))
  | S2 =>
    rw [← hag.type_v9 (by simp [report, rowsV9LeafS2, rows110_56]), hk]
    have hskl := hag.skl (by simp [report, rowsV9LeafS2, rows110_56])
    have hf := fieldsV9LeafS2_congr hag
    exact .of_runFormat rfl (.report (by simp only [hf]) (congrArg _ hskl) (by simp only [hf]))

theorem classifyV9_bitZero (h : d.extractLsb' 0 1 = 0#1) : classifyV9 c d = .Invalid .BitZero := by
  rw [classifyV9, getLsbD_zero_of_low h]
  rfl

theorem v9InvalidCause_of_classifyV9 {cause : InvalidCause} (h : classifyV9 c d = .Invalid cause) :
    v9InvalidCause c (v9InvalidBits (d.extractLsb' 115 13) (d.extractLsb' 114 1) (d.extractLsb' 1 113)
      (d.extractLsb' 0 1)) = some cause := by
  rw [v9InvalidBits_ofBits, v9InvalidCause, h]

/-- An Invalid descriptor with bit [0] = 0 reads Protected only; one with bit [0] = 1 has no field table, so
that no bit of it is left out of the agreement (R260, decision D17). -/
theorem latchesSame_v9Invalid {cause : InvalidCause} (hk : classifyV9 s.ctx d = .Invalid cause)
    (h : exec (decodeV9 s.ctx d) s = .next t) (ht : t.output = some dec)
    (hag : AgreeRows isRead dec.rows d d') : LatchesSame s dec (decodeV9 s.ctx d') := by
  have hlatch := h
  unfold decodeV9 at hlatch
  simp only [hk] at hlatch
  obtain ⟨cause', hc, rfl⟩ := runFormatWith_output hlatch ht
  by_cases h0 : d.extractLsb' 0 1 = 0#1
  · obtain ⟨h114, hbit⟩ : ((s.ctx.stage = .S1 ∧ s.ctx.FEAT_THE = true) → SameBits d d' 114 1)
        ∧ SameBits d d' 0 1 := by
      simpa [report, rowsV9Invalid, h0] using hag
    have h0' : d'.extractLsb' 0 1 = 0#1 := hbit.symm.trans h0
    cases (v9InvalidCause_of_classifyV9 (classifyV9_bitZero h0)).symm.trans hc
    have hprot : v9InvalidProtected s.ctx (d.extractLsb' 114 1) 0#1
        = v9InvalidProtected s.ctx (d'.extractLsb' 114 1) 0#1 :=
      presentIf_inj.2 fun hp => h114 (by simpa using hp)
    unfold decodeV9
    rw [classifyV9_bitZero h0']
    refine .of_runFormatWith rfl (v9InvalidCause_of_classifyV9 (classifyV9_bitZero h0')) ?_
    rw [h0, h0']
    exact .report (congrArg (Result.v9Invalid · .BitZero) hprot) rfl rfl
  · obtain ⟨hhigh, hlow⟩ : SameBits d d' 1 127 ∧ SameBits d d' 0 1 := by
      simpa [report, rowsV9Invalid, h0] using hag
    obtain rfl : d = d' := by simpa [SameBits] using hlow.append rfl hhigh
    exact .self h ht

theorem latchesSame_v9 (h : exec (decodeV9 s.ctx d) s = .next t) (ht : t.output = some dec)
    (hag : AgreeRows isRead dec.rows d d') : LatchesSame s dec (decodeV9 s.ctx d') := by
  cases hk : classifyV9 s.ctx d with
  | Invalid cause => exact latchesSame_v9Invalid hk h ht hag
  | Table => exact latchesSame_v9Table hk h ht hag
  | BlockOrPage => exact latchesSame_v9Leaf hk h ht hag

end V9

end Sys2Proof.Machine
end

section
/-! PROOFS. IGNORED, RES0 and RES1 bits have no effect (R70 to R72, decision D11): over both systems, what is
read is the same, and without a RES0 or RES1 bit that differs so are the reports. -/

namespace Sys2Proof.Machine

open Sys2Proof Sys2Proof.Claims

variable {s t : State}

/-- Two descriptors of one system's length have the same length (R79). -/
theorem sameLength_of_isOf {d d' : Desc} {sys : System} (hd : d.isOf sys = true) (hd' : d'.isOf sys = true) :
    (∃ x x', d = .d64 x ∧ d' = .d64 x') ∨ (∃ x x', d = .d128 x ∧ d' = .d128 x') := by
  cases sys with
  | VMSAv8_64 => cases d <;> cases d' <;> simp_all [Desc.isOf]
  | VMSAv9_128 => cases d <;> cases d' <;> simp_all [Desc.isOf]

/-- A descriptor that yields an outcome decodes to an instruction that latches it. -/
theorem outcomeOf_next {d : Desc} (h : outcomeOf s d = .next t) :
    ∃ i, decodeDesc s.ctx d = .ok i ∧ exec i s = .next t := by
  unfold outcomeOf at h
  cases hi : decodeDesc s.ctx d with simp only [hi] at h
  | error r => cases h
  | ok i => exact ⟨i, rfl, h⟩

theorem outcomeOf_of_decodeDesc {d : Desc} {i : Instr} (h : decodeDesc s.ctx d = .ok i) :
    outcomeOf s d = exec i s := by
  simp [outcomeOf, h]

/-- A descriptor that agrees on the rows that are read decodes to an instruction that latches the same. -/
theorem exists_latchesSame {d d' : Desc} {i : Instr} {dec : Decoded} (hd : d.isOf s.ctx.system = true)
    (hd' : d'.isOf s.ctx.system = true) (hi : decodeDesc s.ctx d = .ok i) (h : exec i s = .next t)
    (ht : t.output = some dec) (hag : agreeOn isRead dec.rows d d') :
    ∃ i', decodeDesc s.ctx d' = .ok i' ∧ LatchesSame s dec i' := by
  have hw := wf_of_decodeDesc_ok hi
  obtain ⟨x, x', rfl, rfl⟩ | ⟨x, x', rfl, rfl⟩ := sameLength_of_isOf hd hd'
  · rw [decodeDesc_d64_of_wf hw] at hi ⊢
    exact exists_latchesSame_v8 hi h ht (.of_d64 hag)
  · rw [decodeDesc_d128_of_wf hw] at hi ⊢
    cases hi
    exact ⟨_, rfl, latchesSame_v9 h ht (.of_d128 hag)⟩

/-- Settles O46: the descriptor decodes to the same format, which reads only bits on which the two agree. -/
theorem reservedBitsHaveNoEffectOnFields : Obligations.ReservedBitsHaveNoEffectOnFields := by
  intro s t d d' dec hd hd' hout ht hag
  obtain ⟨i, hi, h⟩ := outcomeOf_next hout
  obtain ⟨i', hi', hsame⟩ := exists_latchesSame hd hd' hi h ht hag
  obtain ⟨dec', h'⟩ := exec_of_wf (wf_of_decodeDesc hd' hi')
  obtain ⟨hresult, hrows, hoa⟩ := hsame _ dec' h' rfl
  exact ⟨_, dec', (outcomeOf_of_decodeDesc hi').trans h', rfl, hresult.symm, hrows.symm, hoa.symm⟩

/-- The two reports of a descriptor under a field table (R70, R71). -/
def reportsOf (rows : List Row) : Desc → Bool × Bool
  | .d64 d => (res0Violation rows d, res1Violation rows d)
  | .d128 d => (res0Violation rows d, res1Violation rows d)

/-- The reports of an outcome are those of the instruction's descriptor under the outcome's field table. -/
theorem exec_reports {i : Instr} {dec : Decoded} (h : exec i s = .next t) (ht : t.output = some dec) :
    (dec.res0_violation, dec.res1_violation) = reportsOf dec.rows i.desc := by
  cases i with
  | v8BlockS1 | v8BlockS2 | v9Invalid =>
    obtain ⟨v, -, rfl⟩ := runFormatWith_output h ht
    rfl
  | _ =>
    cases runFormat_output h ht
    rfl

theorem notIgnored_of_isRes0 {r : Row} (h : r.isRes0 = true) : notIgnored r.cls = true := by
  unfold Row.isRes0 at h
  cases hc : r.cls <;> simp_all [notIgnored]

theorem notIgnored_of_isRes1 {r : Row} (h : r.isRes1 = true) : notIgnored r.cls = true := by
  unfold Row.isRes1 at h
  cases hc : r.cls <;> simp_all [notIgnored]

/-- A test of some rows has one value for two descriptors with the same bits in those rows. -/
theorem any_rows_congr {w : Nat} {rows : List Row} {d d' : BitVec w} {picked : Row → Bool}
    {test : Row → BitVec w → Bool} (hag : AgreeRows notIgnored rows d d')
    (hpicked : ∀ r, picked r = true → notIgnored r.cls = true)
    (htest : ∀ r, SameBits d d' r.lo (r.hi + 1 - r.lo) → test r d = test r d') :
    (rows.any fun r => picked r && test r d) = rows.any fun r => picked r && test r d' := by
  rw [Bool.eq_iff_iff, List.any_eq_true, List.any_eq_true]
  refine exists_congr fun r => and_congr_right fun hr => ?_
  cases hp : picked r with
  | false => simp
  | true => rw [htest r (hag r hr (hpicked r hp))]

theorem reports_congr {w : Nat} {rows : List Row} {d d' : BitVec w} (h : AgreeRows notIgnored rows d d') :
    res0Violation rows d = res0Violation rows d' ∧ res1Violation rows d = res1Violation rows d' :=
  ⟨any_rows_congr h (fun _ => notIgnored_of_isRes0) fun r hr => by unfold Row.someOne; rw [hr],
    any_rows_congr h (fun _ => notIgnored_of_isRes1) fun r hr => by unfold Row.someZero; rw [hr]⟩

theorem reportsOf_congr {rows : List Row} {d d' : Desc} {sys : System} (hd : d.isOf sys = true)
    (hd' : d'.isOf sys = true) (h : agreeOn notIgnored rows d d') : reportsOf rows d = reportsOf rows d' := by
  obtain ⟨x, x', rfl, rfl⟩ | ⟨x, x', rfl, rfl⟩ := sameLength_of_isOf hd hd'
  · obtain ⟨h0, h1⟩ := reports_congr (.of_d64 h)
    rw [reportsOf, reportsOf, h0, h1]
  · obtain ⟨h0, h1⟩ := reports_congr (.of_d128 h)
    rw [reportsOf, reportsOf, h0, h1]

theorem notIgnored_of_isRead {b : BitClass} (h : isRead b = true) : notIgnored b = true := by
  cases b <;> simp_all [notIgnored]

/-- Settles O45: what is read is the same (O46), and so are the bits that the reports look at. -/
theorem ignoredBitsHaveNoEffect : Obligations.IgnoredBitsHaveNoEffect := by
  intro s t d d' dec hd hd' hout ht hag
  obtain ⟨i, hi, h⟩ := outcomeOf_next hout
  obtain ⟨i', hi', hsame⟩ := exists_latchesSame hd hd' hi h ht fun r hr hread =>
    hag r hr (notIgnored_of_isRead hread)
  obtain ⟨dec', h'⟩ := exec_of_wf (wf_of_decodeDesc hd' hi')
  obtain ⟨hresult, hrows, hoa⟩ := hsame _ dec' h' rfl
  have hreports : (dec.res0_violation, dec.res1_violation) = (dec'.res0_violation, dec'.res1_violation) := by
    rw [exec_reports h ht, exec_reports h' rfl, desc_of_decodeDesc hi, desc_of_decodeDesc hi', ← hrows]
    exact reportsOf_congr hd hd' hag
  have hdec : dec' = dec := by
    cases dec
    cases dec'
    simp_all
  obtain ⟨-, dec₀, rfl⟩ := exec_next h
  cases ht
  exact (outcomeOf_of_decodeDesc hi').trans (hdec ▸ h')

end Sys2Proof.Machine
end

section
/-! PROOFS. The VMSAv8-64 Table descriptor at either stage (R100 to R106, R115 to R117): what its type bits decode
to, the next-level table address over the descriptor's bits, and the bits that the RES0 report looks at. -/

namespace Sys2Proof.Machine

open Sys2Proof Sys2Proof.Claims

variable {s : State} {d : Desc64}

/-! ### The bits of one row of a report (R70) -/

theorem some1_bit {w : Nat} (d : BitVec w) (k : Nat) : some1 (d.extractLsb' k 1) = d.getLsbD k := by
  have hbit : ∀ x : Bit, some1 x = x.getLsbD 0 := by decide
  simpa using hbit (d.extractLsb' k 1)

theorem someOne_range {w : Nat} (d : BitVec w) (hi lo : Nat) (b : BitClass) :
    (Row.mk hi lo b).someOne d = some1 (d.extractLsb' lo (hi + 1 - lo)) := rfl

theorem someOne_bit {w : Nat} (d : BitVec w) (k : Nat) (b : BitClass) :
    (Row.mk k k b).someOne d = d.getLsbD k := by
  rw [someOne_range, Nat.add_sub_cancel_left, some1_bit]

/-! ### The address region of a Table or Page descriptor (R104, R150) -/

theorem granuleAddrV8_eq_addrV8 (c : Ctx) (d : Desc64) :
    granuleAddrV8 c (d.extractLsb' 48 2) (d.extractLsb' 12 36) (d.extractLsb' 8 2) = addrV8 c d := by
  unfold granuleAddrV8 addrV8
  simp (disch := omega) only [extract_extract]
  cases c.granule <;> cases c.DS <;> cases c.FEAT_LPA <;> rfl

theorem res0Violation_addressRows (c : Ctx) (d : Desc64) (f : FieldName) :
    res0Violation (row49_48 c f :: rows47_12 c f) d = addrRes0V8 c d := by
  unfold row49_48 rows47_12 addrRes0V8
  cases hg : c.granule with
  | G4K | G16K => cases hds : c.DS <;> simp [ds52, hg, hds, someOne_range]
  | G64K => cases c.FEAT_LPA <;> simp [ds52, hg, someOne_range]

@[simp] theorem res0Violation_v8TableLow : res0Violation (rowsV8TableLow c) d = false := by
  simp [rowsV8TableLow]

/-! ### Stage 1 -/

theorem yields_v8TableS1 (h : V8At s .S1) (hl : s.ctx.level < 3) (hty : d.extractLsb' 0 2 = 0b11#2) :
    Yields s (.d64 d) (.v8TableS1 (.ofBits d))
      (report (.v8TableS1 (fieldsV8TableS1 s.ctx (.ofBits d))) (rowsV8TableS1 s.ctx) d .none) := by
  obtain ⟨hw, hsys, hs⟩ := h
  have hi : decodeDesc s.ctx (.d64 d) = .ok (.v8TableS1 (.ofBits d)) := by
    simp [decodeDesc_d64_of_wf hw, decodeV8, classifyV8_type_11 hty, hl.ne, hs]
  have hexec := execV8TableS1_next_iff.2 ⟨wf_of_decodeDesc (isOf_d64_iff.2 hsys) hi, rfl⟩
  rw [V8TableS1Ops.toBits_ofBits d hty] at hexec
  exact ⟨hi, hexec⟩

theorem res0Violation_v8TableS1 (c : Ctx) (d : Desc64) :
    res0Violation (rowsV8TableS1 c) d
      = ((!decide (c.secstate = .Secure) && d.getLsbD 63)
        || (c.hier_perm && (nv11 c || !c.two_priv) && d.getLsbD 59)
        || d.getLsbD 50 || addrRes0V8 c d) := by
  rw [← res0Violation_addressRows c d .NLTA]
  simp [rowsV8TableS1, someOne_bit, Bool.or_assoc]

/-- PXNTable is bit [60] under {NV, NV1} = {1, 1}, else bit [59] where there are two privilege levels (R103). -/
theorem pxnTable_eq_iff' {α : Type} (hier nv two : Bool) (x y : α) :
    (if hier then (if nv then some x else if two then some y else none) else none)
      = iff' (hier && (nv || two)) (if nv then x else y) := by
  cases hier <;> cases nv <;> cases two <;> rfl

/-- Settles O13: the type bits pick the format, and its rules read the descriptor's bits field by field. -/
theorem v8TableStage1Decode : Obligations.V8TableStage1Decode := by
  intro s d h hl hty
  refine ⟨_, yields_v8TableS1 h hl hty, congrArg Result.v8TableS1 ?_, res0Violation_v8TableS1 s.ctx d,
    res1Violation_v8TableS1 .., rfl⟩
  obtain ⟨-, -, hs⟩ := h
  rw [fieldsV8TableS1, pxnTable_eq_iff']
  simp [V8TableS1Ops.ofBits, nltaV8, granuleAddrV8_eq_addrV8, nltaKind, hs, nextLevel, presentIf, iff',
    nv11, nv11At, extract_extract]

/-! ### Stage 2 -/

theorem yields_v8TableS2 (h : V8At s .S2) (hl : s.ctx.level < 3) (hty : d.extractLsb' 0 2 = 0b11#2) :
    Yields s (.d64 d) (.v8TableS2 (.ofBits d))
      (report (.v8TableS2 (fieldsV8TableS2 s.ctx (.ofBits d))) (rowsV8TableS2 s.ctx) d .none) := by
  obtain ⟨hw, hsys, hs⟩ := h
  have hi : decodeDesc s.ctx (.d64 d) = .ok (.v8TableS2 (.ofBits d)) := by
    simp [decodeDesc_d64_of_wf hw, decodeV8, classifyV8_type_11 hty, hl.ne, hs]
  have hexec := execV8TableS2_next_iff.2 ⟨wf_of_decodeDesc (isOf_d64_iff.2 hsys) hi, rfl⟩
  rw [V8TableS2Ops.toBits_ofBits d hty] at hexec
  exact ⟨hi, hexec⟩

theorem res0Violation_v8TableS2 (c : Ctx) (d : Desc64) :
    res0Violation (rowsV8TableS2 c) d
      = (d.getLsbD 63 || (!c.s2_indirect && some1 (d.extractLsb' 59 4))
        || d.getLsbD 50 || addrRes0V8 c d) := by
  rw [← res0Violation_addressRows c d .NLTA]
  simp [rowsV8TableS2, someOne_bit, someOne_range, Bool.or_assoc]

/-- Settles O14: as O13, with the fields of stage 2, whose next table is at a PA. -/
theorem v8TableStage2Decode : Obligations.V8TableStage2Decode := by
  intro s d h hl hty
  refine ⟨_, yields_v8TableS2 h hl hty, congrArg Result.v8TableS2 ?_, res0Violation_v8TableS2 s.ctx d,
    res1Violation_v8TableS2 .., rfl⟩
  simp [fieldsV8TableS2, V8TableS2Ops.ofBits, nltaV8, granuleAddrV8_eq_addrV8, nextLevel, presentIf, iff']

end Sys2Proof.Machine
end

section
/-! PROOFS. What a field table says of the decoded fields: a row that names bits of a field gives them the
descriptor bits of the row (R13, R80). -/

namespace Sys2Proof.Machine

open Sys2Proof Sys2Proof.Claims

variable {w : Nat} {nv : Bool} {d : BitVec w} {field : FieldName → Nat → Option Bool}

/-! ### Rows, their classes and the fields they name -/

/-- Bits `hi..lo` of the field `f` are bits `dhi..dlo` of the descriptor, but APTable[0] is 0 under
{NV, NV1} = {1, 1} (R103). -/
def FieldIs (nv : Bool) (d : BitVec w) (field : FieldName → Nat → Option Bool) (dhi dlo : Nat) (f : FieldName)
    (hi lo : Nat) : Prop :=
  hi + dlo = dhi + lo ∧ lo ≤ hi ∧ ∀ k, lo ≤ k → k ≤ hi →
    field f k = some (if f = .APTable ∧ k = 0 ∧ nv = true then false else d.getLsbD (dlo + (k - lo)))

/-- The fields have the bits that a row `dhi..dlo` of a class gives them. -/
def ClassHolds (nv : Bool) (d : BitVec w) (field : FieldName → Nat → Option Bool) (dhi dlo : Nat)
    (b : BitClass) : Prop :=
  ∀ f hi lo, named b = some (f, hi, lo) → FieldIs nv d field dhi dlo f hi lo

/-- The fields have the bits that the rows of a field table give them. -/
def RowsHold (nv : Bool) (d : BitVec w) (field : FieldName → Nat → Option Bool) (rows : List Row) : Prop :=
  ∀ r ∈ rows, ClassHolds nv d field r.hi r.lo r.cls

section Rows
variable {rs rs' : List Row}

@[simp] theorem rowsHold_nil : RowsHold nv d field [] := nofun

@[simp] theorem rowsHold_cons {hi lo : Nat} {b : BitClass} :
    RowsHold nv d field (⟨hi, lo, b⟩ :: rs) ↔ ClassHolds nv d field hi lo b ∧ RowsHold nv d field rs := by
  simp [RowsHold]

@[simp] theorem rowsHold_append :
    RowsHold nv d field (rs ++ rs') ↔ RowsHold nv d field rs ∧ RowsHold nv d field rs' := by
  simp [RowsHold, or_imp, forall_and]

end Rows

section Class
variable {dhi dlo hi lo : Nat} {f : FieldName}

@[simp] theorem classHolds_classIf {p : Bool} {a b : BitClass} :
    ClassHolds nv d field dhi dlo (classIf p a b)
      ↔ (p = true → ClassHolds nv d field dhi dlo a) ∧ (p = false → ClassHolds nv d field dhi dlo b) := by
  cases p <;> simp [classIf]

@[simp] theorem classHolds_field :
    ClassHolds nv d field dhi dlo (.field f hi lo) ↔ FieldIs nv d field dhi dlo f hi lo := by
  simp [ClassHolds, named]

@[simp] theorem classHolds_software :
    ClassHolds nv d field dhi dlo (.software f hi lo) ↔ FieldIs nv d field dhi dlo f hi lo := by
  simp [ClassHolds, named]

@[simp] theorem classHolds_systemMmu :
    ClassHolds nv d field dhi dlo (.systemMmu f hi lo) ↔ FieldIs nv d field dhi dlo f hi lo := by
  simp [ClassHolds, named]

@[simp] theorem classHolds_bitField :
    ClassHolds nv d field dhi dlo (bitField f) ↔ FieldIs nv d field dhi dlo f 0 0 :=
  classHolds_field

@[simp] theorem classHolds_res0 : ClassHolds nv d field dhi dlo .res0 := nofun
@[simp] theorem classHolds_res1 : ClassHolds nv d field dhi dlo .res1 := nofun
@[simp] theorem classHolds_ignored : ClassHolds nv d field dhi dlo .ignored := nofun
@[simp] theorem classHolds_noRow : ClassHolds nv d field dhi dlo .noRow := nofun
@[simp] theorem classHolds_typeBit {v : Bool} : ClassHolds nv d field dhi dlo (.typeBit v) := nofun

/-- Bit [63] of a stage 1 Block or Page is the software field or AMEC (R131, R134). -/
@[simp] theorem classHolds_classV8LeafS1Bit63 {c : Ctx} {ns : Bit} :
    ClassHolds nv d field dhi dlo (classV8LeafS1Bit63 c ns)
      ↔ (c.secstate = .NonSecure ∨ realmEL1 c = true → FieldIs nv d field dhi dlo .sw63 0 0)
        ∧ (realmEL2 c = true → ns = 0#1 → FieldIs nv d field dhi dlo .AMEC 0 0) := by
  unfold classV8LeafS1Bit63 realmEL1 realmEL2
  cases c.secstate with
  | Realm => cases c.regime <;> simp
  | _ => simp

/-! ### A row bit by bit -/

@[simp] theorem fieldIs_bit {m j : Nat} (hf : f ≠ .APTable) :
    FieldIs nv d field m m f j j ↔ field f j = some (d.getLsbD m) := by
  simp only [FieldIs, hf, false_and, if_false, Nat.add_comm m, le_refl, true_and]
  constructor
  · intro h
    simpa using h j le_rfl le_rfl
  · intro h k hlo hhi
    obtain rfl : k = j := by omega
    simpa using h

@[simp] theorem fieldIs_from_zero (hf : f ≠ .APTable) :
    FieldIs nv d field dhi dlo f hi 0
      ↔ hi + dlo = dhi ∧ ∀ k < hi + 1, field f k = some (d.getLsbD (dlo + k)) := by
  simp [FieldIs, hf]

@[simp] theorem fieldIs_apTable :
    FieldIs nv d field 62 61 .APTable 1 0
      ↔ field .APTable 0 = some (if nv then false else d.getLsbD 61)
        ∧ field .APTable 1 = some (d.getLsbD 62) := by
  unfold FieldIs
  constructor
  · rintro ⟨-, -, h⟩
    exact ⟨by simpa using h 0, by simpa using h 1⟩
  · rintro ⟨h0, h1⟩
    refine ⟨by decide, by decide, fun k _ hk => ?_⟩
    obtain rfl | rfl : k = 0 ∨ k = 1 := by omega
    · simpa using h0
    · simpa using h1

end Class

@[simp] theorem bitOf?_some {n k : Nat} {v : BitVec n} : bitOf? (some v) k = bitOf v k := rfl

@[simp] theorem bitOf?_presentIf {n k : Nat} {p : Bool} {v : BitVec n} :
    bitOf? (presentIf p v) k = if p then bitOf v k else none := by
  cases p <;> rfl

/-- The bits of a range with one bit below it. -/
theorem getElem_append_bit {v k : Nat} (x : BitVec v) (y : Bit) (h : k < v + 1) :
    (x ++ y)[k] = if hk : k = 0 then y[0] else x[k - 1] := by
  by_cases hk : k = 0 <;> simp [BitVec.getElem_append, hk]

end Sys2Proof.Machine
end

section
/-! PROOFS. The address rows of the field tables: which descriptor bits the bits of a next-level table address and
of an OAB are (R104, R150, R151, R194, R226). -/

namespace Sys2Proof.Machine

open Sys2Proof Sys2Proof.Claims

variable {w : Nat} {nv : Bool} {d : BitVec w} {field : FieldName → Nat → Option Bool} {f : FieldName} {c : Ctx}

/-- Bits `hi..lo` of an address are the bits of the descriptor from bit `dlo` on. -/
def AddrIs {v : Nat} (a : BitVec v) (hi lo : Nat) (d : BitVec w) (dlo : Nat) : Prop :=
  ∀ k, lo ≤ k → k ≤ hi → bitOf a k = some (d.getLsbD (dlo + (k - lo)))

theorem AddrIs.of_extract {v hi lo dlo : Nat} {a : BitVec v} (hhi : hi < v)
    (h : a.extractLsb' lo (hi + 1 - lo) = d.extractLsb' dlo (hi + 1 - lo)) : AddrIs a hi lo d dlo := by
  intro k hlo hk
  have hbit := congrArg (BitVec.getLsbD · (k - lo)) h
  simp only [BitVec.getLsbD_extractLsb', show k - lo < hi + 1 - lo by omega, Nat.add_sub_cancel' hlo,
    decide_true, Bool.true_and] at hbit
  rw [bitOf, if_pos (by omega), hbit]

/-- A row that names bits of an address field. -/
theorem AddrIs.fieldIs {v dhi dlo hi lo : Nat} {a : BitVec v} (h : AddrIs a hi lo d dlo)
    (hf : f = .NLTA ∨ f = .OAB) (hfield : ∀ k, field f k = bitOf a k) (hlo : lo ≤ hi)
    (hwidth : hi + dlo = dhi + lo) : FieldIs nv d field dhi dlo f hi lo :=
  ⟨hwidth, hlo, fun k hk hk' => by obtain rfl | rfl := hf <;> simp [hfield, h k hk hk']⟩

/-! ### VMSAv8-64 -/

section V8
variable {d : Desc64}

/-- With the 52-bit layout of DS an address has bits [9:8] and [49:48] at its top (R104, R150, R151). -/
def HasTop (c : Ctx) (a : BitVec 52) (d : Desc64) : Prop :=
  ds52 c = true → AddrIs a 49 48 d 48 ∧ AddrIs a 51 50 d 8

theorem HasTop.classHolds_49_48 {a : BitVec 52} (h : HasTop c a d) (hf : f = .NLTA ∨ f = .OAB)
    (hfield : ∀ k, field f k = bitOf a k) :
    ClassHolds nv d field 49 48 (classIf (ds52 c) (.field f 49 48) .res0) := by
  simpa using fun hds => (h hds).1.fieldIs hf hfield (by omega) rfl

theorem HasTop.classHolds_9_8 {a : BitVec 52} {b : BitClass} (h : HasTop c a d) (hf : f = .NLTA ∨ f = .OAB)
    (hfield : ∀ k, field f k = bitOf a k) (hb : ds52 c = false → ClassHolds nv d field 9 8 b) :
    ClassHolds nv d field 9 8 (classIf (ds52 c) (.field f 51 50) b) := by
  simpa using ⟨fun hds => (h hds).2.fieldIs hf hfield (by omega) rfl, hb⟩

theorem addrV8_hasTop : HasTop c (addrV8 c d) d := by
  intro h
  obtain ⟨hg, hds⟩ : c.granule ≠ .G64K ∧ c.DS = true := by simpa [ds52] using h
  unfold addrV8
  cases hg' : c.granule with
  | G64K => exact absurd hg' hg
  | G4K | G16K =>
    refine ⟨.of_extract (by omega) ?_, .of_extract (by omega) ?_⟩ <;>
      · simp (disch := omega) only [hds, BitVec.extractLsb'_append_eq_of_le,
          BitVec.extractLsb'_append_eq_of_add_le]
        simp

/-- With the 64KB granule and FEAT_LPA the top bits of a Table or Page address are bits [15:12]. -/
theorem addrV8_top_64K (hg : c.granule = .G64K) (hl : c.FEAT_LPA = true) : AddrIs (addrV8 c d) 51 48 d 12 := by
  refine .of_extract (by omega) ?_
  unfold addrV8
  simp (disch := omega) only [hg, hl, BitVec.extractLsb'_append_eq_of_le]
  simp

/-- From bit 47 down to the granule size a Table or Page address is its descriptor. -/
theorem addrV8_middle : AddrIs (addrV8 c d) 47 (granuleBits c.granule) d (granuleBits c.granule) := by
  refine .of_extract (by omega) ?_
  unfold addrV8 granuleBits
  cases c.granule <;> cases c.DS <;> cases c.FEAT_LPA <;>
    · simp (disch := omega) only [BitVec.extractLsb'_append_eq_of_le, BitVec.extractLsb'_append_eq_of_add_le]
      simp

theorem rowsHold_rows47_12 (hf : f = .NLTA ∨ f = .OAB) (hfield : ∀ k, field f k = bitOf (addrV8 c d) k) :
    RowsHold nv d field (rows47_12 c f) := by
  have hmid := addrV8_middle (c := c) (d := d)
  unfold granuleBits at hmid
  unfold rows47_12
  cases hg : c.granule with simp only [hg] at hmid
  | G4K | G16K => simpa using hmid.fieldIs hf hfield (by omega) rfl
  | G64K =>
    simpa using ⟨hmid.fieldIs hf hfield (by omega) rfl,
      fun hl => (addrV8_top_64K hg hl).fieldIs hf hfield (by omega) rfl⟩

/-- The OAB of a Block descriptor with the low bound `n` (R151). -/
abbrev oabBlockOf (c : Ctx) (n : Nat) (d : Desc64) : BitVec 52 :=
  oabBlockV8 c n (d.extractLsb' 48 2) (d.extractLsb' 17 31) (d.extractLsb' 12 4) (d.extractLsb' 8 2)

theorem oabBlockOf_hasTop {n : Nat} : HasTop c (oabBlockOf c n d) d := by
  intro h
  obtain ⟨hg, hds⟩ : c.granule ≠ .G64K ∧ c.DS = true := by simpa [ds52] using h
  unfold oabBlockOf oabBlockV8 blockHi4
  cases hg' : c.granule with
  | G64K => exact absurd hg' hg
  | G4K | G16K =>
    refine ⟨.of_extract (by omega) ?_, .of_extract (by omega) ?_⟩ <;>
      · simp (disch := omega) only [hds, if_true, BitVec.extractLsb'_append_eq_of_le,
          BitVec.extractLsb'_append_eq_of_add_le]
        simp

theorem oabBlockOf_top_64K {n : Nat} (h : lpa64 c = true) : AddrIs (oabBlockOf c n d) 51 48 d 12 := by
  obtain ⟨hg, hl⟩ : c.granule = .G64K ∧ c.FEAT_LPA = true := by simpa [lpa64] using h
  refine .of_extract (by omega) ?_
  unfold oabBlockOf oabBlockV8 blockHi4
  simp (disch := omega) only [hg, hl, if_true, BitVec.extractLsb'_append_eq_of_le]
  simp

theorem oabBlockOf_middle {n : Nat} (hn : 17 ≤ n) : AddrIs (oabBlockOf c n d) 47 n d n := by
  intro k hlo hhi
  rw [bitOf, if_pos (by omega), oabBlockOf, oabBlockV8, BitVec.getLsbD_append, if_pos (by omega)]
  simp only [BitVec.getLsbD_shiftLeft, BitVec.getLsbD_ushiftRight, BitVec.getLsbD_append,
    BitVec.getLsbD_extractLsb', Nat.add_sub_cancel' hlo, show ¬ k < n by omega, show ¬ k < 17 by omega,
    show k - 17 < 31 by omega, show 17 + (k - 17) = k by omega, show k < 48 by omega]
  simp

theorem rowsHold_rowsBlock47_12 {n : Nat} (hn : blockShiftV8 c = some n)
    (hfield : ∀ k, field .OAB k = bitOf (oabBlockOf c n d) k)
    (hnT : c.FEAT_BBML1 = true → field .nT 0 = some (d.getLsbD 16)) :
    RowsHold nv d field (rowsBlock47_12 c n) := by
  obtain ⟨hlower, hupper⟩ := blockShiftV8_bounds hn
  have hmid : FieldIs nv d field 47 n .OAB 47 n :=
    (oabBlockOf_middle (by omega)).fieldIs (.inr rfl) hfield hupper rfl
  have htop (hl : lpa64 c = true) : FieldIs nv d field 15 12 .OAB 51 48 :=
    (oabBlockOf_top_64K hl).fieldIs (.inr rfl) hfield (by omega) rfl
  simpa [rowsBlock47_12] using ⟨hmid, hnT, htop⟩

end V8

/-! ### VMSAv9-128 -/

section V9
variable {d : Desc128}

theorem granuleAddrV9_eq_addrV9 (c : Ctx) (d : Desc128) :
    granuleAddrV9 c (d.extractLsb' 12 44) = addrV9 c d := by
  unfold granuleAddrV9 addrV9
  cases c.granule <;> simp (disch := omega) only [extract_extract]

/-- From bit 55 down to the granule size the address is its descriptor. -/
theorem addrV9_middle : AddrIs (addrV9 c d) 55 (granuleBits c.granule) d (granuleBits c.granule) := by
  refine .of_extract (by omega) ?_
  unfold addrV9 granuleBits
  cases c.granule <;> exact extract_high_append _ _

theorem rowsHold_rows55_12 (hf : f = .NLTA ∨ f = .OAB)
    (hfield : ∀ k, field f k = bitOf (granuleAddrV9 c (d.extractLsb' 12 44)) k) :
    RowsHold nv d field (rows55_12 c f) := by
  have haddr := addrV9_middle (c := c) (d := d)
  rw [granuleAddrV9_eq_addrV9] at hfield
  unfold granuleBits at haddr
  unfold rows55_12
  cases hg : c.granule with simp only [hg] at haddr
  | G4K | G16K | G64K => simpa using haddr.fieldIs hf hfield (by omega) rfl

end V9

end Sys2Proof.Machine
end

section
/-! PROOFS. The two transcriptions of the formats agree, format by format: the fields that a decode rule reads from
a descriptor have the bits that its field table names. The address rows are settled apart; the others are compared
row by row. -/

namespace Sys2Proof.Machine

open Sys2Proof Sys2Proof.Claims

variable {nv : Bool} {field : FieldName → Nat → Option Bool} {c : Ctx}

/-! ### VMSAv8-64 Table descriptors -/

section V8
variable {d : Desc64}

theorem rowsHold_v8TableLow (haddr : ∀ k, field .NLTA k = bitOf (addrV8 c d) k)
    (hAF : c.hw_table_af = true → field .AF 0 = some (d.getLsbD 10)) :
    RowsHold nv d field (rowsV8TableLow c) := by
  have h9_8 : ClassHolds nv d field 9 8 (classIf (ds52 c) (.field .NLTA 51 50) .ignored) :=
    addrV8_hasTop.classHolds_9_8 (.inl rfl) haddr fun _ => classHolds_ignored
  simp only [rowsV8TableLow, rowsHold_cons, h9_8]
  simpa using hAF

theorem rowsHold_v8TableS1 {o : V8TableS1Ops} (ho : .ofBits d = o) :
    RowsHold (nv11 c) d (fieldsV8TableS1 c o).fieldBit (rowsV8TableS1 c) := by
  subst ho
  have haddr (k) : (fieldsV8TableS1 c (.ofBits d)).fieldBit .NLTA k = bitOf (addrV8 c d) k := by
    rw [← granuleAddrV8_eq_addrV8]
    rfl
  have hlow : RowsHold (nv11 c) d (fieldsV8TableS1 c (.ofBits d)).fieldBit (rowsV8TableLow c) :=
    rowsHold_v8TableLow haddr (by
      simp +contextual [V8TableS1.fieldBit, fieldsV8TableS1, V8TableS1Ops.ofBits, bitOf])
  simp only [rowsV8TableS1, row49_48, rowsHold_append, rowsHold_cons, rowsHold_rows47_12 (.inl rfl) haddr,
    addrV8_hasTop.classHolds_49_48 (.inl rfl) haddr, hlow]
  cases hnv : nv11 c <;>
    simp +contextual [hnv, V8TableS1.fieldBit, fieldsV8TableS1, V8TableS1Ops.ofBits, bitOf, getElem_append_bit]

theorem rowsHold_v8TableS2 {o : V8TableS2Ops} (ho : .ofBits d = o) :
    RowsHold nv d (fieldsV8TableS2 c o).fieldBit (rowsV8TableS2 c) := by
  subst ho
  have haddr (k) : (fieldsV8TableS2 c (.ofBits d)).fieldBit .NLTA k = bitOf (addrV8 c d) k := by
    rw [← granuleAddrV8_eq_addrV8]
    rfl
  have hlow : RowsHold nv d (fieldsV8TableS2 c (.ofBits d)).fieldBit (rowsV8TableLow c) :=
    rowsHold_v8TableLow haddr (by
      simp +contextual [V8TableS2.fieldBit, fieldsV8TableS2, V8TableS2Ops.ofBits, bitOf])
  simp only [rowsV8TableS2, row49_48, rowsHold_append, rowsHold_cons, rowsHold_rows47_12 (.inl rfl) haddr,
    addrV8_hasTop.classHolds_49_48 (.inl rfl) haddr, hlow]
  simp

/-! ### VMSAv8-64 Block and Page descriptors: the shared ranges around the rows of bits [47:12] -/

section Leaf
variable {oab : BitVec 52} {n : Nat} {nT : Option Bit} {b : Bool} {mid : List Row} {m : BitVec 36}

theorem rowsHold_v8LeafS1 (htop : HasTop c oab d)
    (hmid : RowsHold nv d (fieldsV8LeafS1 c (.ofBits d) oab n nT).fieldBit mid) :
    RowsHold nv d (fieldsV8LeafS1 c (.ofBits d) oab n nT).fieldBit
      (rowsV8LeafS1High c (d.extractLsb' 5 1) ++ mid ++ rowsV8LeafS1Low c b) := by
  have h49_48 := htop.classHolds_49_48 (nv := nv) (field := (fieldsV8LeafS1 c (.ofBits d) oab n nT).fieldBit)
    (.inr rfl) fun _ => rfl
  have h9_8 := htop.classHolds_9_8 (nv := nv) (field := (fieldsV8LeafS1 c (.ofBits d) oab n nT).fieldBit)
    (b := .field .SH 1 0) (.inr rfl) (fun _ => rfl) (by
      simp +contextual [V8LeafS1.fieldBit, fieldsV8LeafS1, V8LeafS1Ops.ofBits, bitOf])
  simp only [rowsV8LeafS1High, rowsV8LeafS1Low, row49_48, rowS1Leaf11, rowLeaf9_8, rowsHold_append, rowsHold_cons,
    h49_48, hmid, h9_8]
  simp +contextual [V8LeafS1.fieldBit, fieldsV8LeafS1, V8LeafS1Ops.ofBits, nsePresent, ngPresent, bitOf, bitOfBits,
    getElem_append_bit]

theorem rowsHold_v8LeafS2 (htop : HasTop c oab d)
    (hmid : RowsHold nv d (fieldsV8LeafS2 c (.ofBits d) oab n nT).fieldBit mid) :
    RowsHold nv d (fieldsV8LeafS2 c (.ofBits d) oab n nT).fieldBit
      (rowsV8LeafS2High c (d.extractLsb' 55 1) ++ mid ++ rowsV8LeafS2Low c b) := by
  have h49_48 := htop.classHolds_49_48 (nv := nv) (field := (fieldsV8LeafS2 c (.ofBits d) oab n nT).fieldBit)
    (.inr rfl) fun _ => rfl
  have h9_8 := htop.classHolds_9_8 (nv := nv) (field := (fieldsV8LeafS2 c (.ofBits d) oab n nT).fieldBit)
    (b := .field .SH 1 0) (.inr rfl) (fun _ => rfl) (by
      simp +contextual [V8LeafS2.fieldBit, fieldsV8LeafS2, V8LeafS2Ops.ofBits, bitOf])
  simp only [rowsV8LeafS2High, rowsV8LeafS2Low, row49_48, rowLeaf9_8, rowsHold_append, rowsHold_cons,
    h49_48, hmid, h9_8]
  simp +contextual [V8LeafS2.fieldBit, fieldsV8LeafS2, V8LeafS2Ops.ofBits, presentIf, bitOf, bitOfBits,
    getElem_append_bit]

theorem oabPageV8_eq_addrV8 (c : Ctx) (d : Desc64) :
    oabPageV8 c (d.extractLsb' 48 2) (d.extractLsb' 12 36) (d.extractLsb' 8 2) = addrV8 c d :=
  granuleAddrV8_eq_addrV8 c d

theorem rowsHold_v8PageS1 {a : V8LeafS1Ops} (ha : .ofBits d = a) (hm : d.extractLsb' 12 36 = m) :
    RowsHold nv d (fieldsV8LeafS1 c a (oabPageV8 c a.b49_48 m a.b9_8) n nT).fieldBit (rowsV8PageS1 c a.b5) := by
  subst ha hm
  unfold V8LeafS1Ops.ofBits
  rw [oabPageV8_eq_addrV8]
  exact rowsHold_v8LeafS1 addrV8_hasTop (rowsHold_rows47_12 (.inr rfl) fun _ => rfl)

theorem rowsHold_v8PageS2 {a : V8LeafS2Ops} (ha : .ofBits d = a) (hm : d.extractLsb' 12 36 = m) :
    RowsHold nv d (fieldsV8LeafS2 c a (oabPageV8 c a.b49_48 m a.b9_8) n nT).fieldBit (rowsV8PageS2 c a.b55) := by
  subst ha hm
  unfold V8LeafS2Ops.ofBits
  rw [oabPageV8_eq_addrV8]
  exact rowsHold_v8LeafS2 addrV8_hasTop (rowsHold_rows47_12 (.inr rfl) fun _ => rfl)

variable {hi : BitVec 31} {nt : Bit} {lo : BitVec 4}

theorem rowsHold_v8BlockS1 {a : V8LeafS1Ops} (hn : blockShiftV8 c = some n) (ha : .ofBits d = a)
    (hm : d.extractLsb' 17 31 = hi ∧ d.extractLsb' 16 1 = nt ∧ d.extractLsb' 12 4 = lo) :
    RowsHold nv d
      (fieldsV8LeafS1 c a (oabBlockV8 c n a.b49_48 hi lo a.b9_8) n (presentIf c.FEAT_BBML1 nt)).fieldBit
      (rowsV8BlockS1 c a.b5 n) := by
  obtain ⟨rfl, rfl, rfl⟩ := hm
  subst ha
  exact rowsHold_v8LeafS1 oabBlockOf_hasTop (rowsHold_rowsBlock47_12 hn (fun _ => rfl) (by
    simp +contextual [V8LeafS1.fieldBit, fieldsV8LeafS1, bitOf]))

theorem rowsHold_v8BlockS2 {a : V8LeafS2Ops} (hn : blockShiftV8 c = some n) (ha : .ofBits d = a)
    (hm : d.extractLsb' 17 31 = hi ∧ d.extractLsb' 16 1 = nt ∧ d.extractLsb' 12 4 = lo) :
    RowsHold nv d
      (fieldsV8LeafS2 c a (oabBlockV8 c n a.b49_48 hi lo a.b9_8) n (presentIf c.FEAT_BBML1 nt)).fieldBit
      (rowsV8BlockS2 c a.b55 n) := by
  obtain ⟨rfl, rfl, rfl⟩ := hm
  subst ha
  exact rowsHold_v8LeafS2 oabBlockOf_hasTop (rowsHold_rowsBlock47_12 hn (fun _ => rfl) (by
    simp +contextual [V8LeafS2.fieldBit, fieldsV8LeafS2, bitOf]))

end Leaf

theorem rowsHold_v8InvalidS1 {p : Bit} {r : Bool} (hp : d.extractLsb' 52 1 = p) :
    RowsHold nv d (Result.v8Invalid (presentIf c.PnCH p) r).fieldBit (rowsV8InvalidS1 c) := by
  subst hp
  simp +contextual [rowsV8InvalidS1, Result.fieldBit, bitOf]

end V8

/-! ### VMSAv9-128 -/

section V9
variable {d : Desc128}

theorem rowsHold_v9TableS1 {o : V9TableS1Ops} (ho : .ofBits d = o) :
    RowsHold nv d (fieldsV9TableS1 c o).fieldBit (rowsV9TableS1 c o.b110_109) := by
  subst ho
  simp only [rowsV9TableS1, rowV9nT, rows110_56, rowsHold_append, rowsHold_cons,
    rowsHold_rows55_12 (field := (fieldsV9TableS1 c (.ofBits d)).fieldBit) (.inl rfl) fun _ => rfl]
  simp +contextual [V9TableS1.fieldBit, fieldsV9TableS1, V9TableS1Ops.ofBits, bitOf]

theorem rowsHold_v9TableS2 {o : V9TableS2Ops} (ho : .ofBits d = o) :
    RowsHold nv d (fieldsV9TableS2 c o).fieldBit (rowsV9TableS2 c o.b110_109) := by
  subst ho
  simp only [rowsV9TableS2, rowV9nT, rows110_56, rowsHold_append, rowsHold_cons,
    rowsHold_rows55_12 (field := (fieldsV9TableS2 c (.ofBits d)).fieldBit) (.inl rfl) fun _ => rfl]
  simp +contextual [V9TableS2.fieldBit, fieldsV9TableS2, V9TableS2Ops.ofBits, bitOf]

theorem rowsHold_v9LeafS1 {o : V9LeafS1Ops} (ho : .ofBits d = o) :
    RowsHold nv d (fieldsV9LeafS1 c o).fieldBit (rowsV9LeafS1 c o.b110_109) := by
  subst ho
  simp only [rowsV9LeafS1, rowS1Leaf11, rowV9nT, rows110_56, rowsHold_append, rowsHold_cons,
    rowsHold_rows55_12 (field := (fieldsV9LeafS1 c (.ofBits d)).fieldBit) (.inr rfl) fun _ => rfl]
  simp +contextual [V9LeafS1.fieldBit, fieldsV9LeafS1, V9LeafS1Ops.ofBits, nsePresent, ngPresent, bitOf]

theorem rowsHold_v9LeafS2 {o : V9LeafS2Ops} (ho : .ofBits d = o) :
    RowsHold nv d (fieldsV9LeafS2 c o).fieldBit (rowsV9LeafS2 c o.b110_109) := by
  subst ho
  simp only [rowsV9LeafS2, rowV9nT, rows110_56, rowsHold_append, rowsHold_cons,
    rowsHold_rows55_12 (field := (fieldsV9LeafS2 c (.ofBits d)).fieldBit) (.inr rfl) fun _ => rfl]
  simp +contextual [V9LeafS2.fieldBit, fieldsV9LeafS2, V9LeafS2Ops.ofBits, bitOf]

theorem rowsHold_v9Invalid {p v : Bit} {cause : InvalidCause} (hp : d.extractLsb' 114 1 = p) :
    RowsHold nv d (Result.v9Invalid (v9InvalidProtected c p v) cause).fieldBit (rowsV9Invalid c v) := by
  subst hp
  unfold rowsV9Invalid
  split <;> simp +contextual [v9InvalidProtected, Result.fieldBit, bitOf, *]

end V9

/-! ### Every format -/

/-- Settles O42: the fields of a format hold the rows of its field table, for the ranges of its descriptor. -/
theorem fieldTablesAgreeWithDecodedFields : Obligations.FieldTablesAgreeWithDecodedFields := by
  intro i s t dec h ht
  cases i with
  | v8TableS1 o =>
    cases runFormat_output h ht
    exact rowsHold_v8TableS1 o.ofBits_toBits
  | v8TableS2 o =>
    cases runFormat_output h ht
    exact rowsHold_v8TableS2 o.ofBits_toBits
  | v8BlockS1 a hi nt lo =>
    obtain ⟨n, hn, rfl⟩ := runFormatWith_output h ht
    exact rowsHold_v8BlockS1 hn (a.ofBits_toBits ..) (a.toBits_block ..)
  | v8PageS1 a m =>
    cases runFormat_output h ht
    exact rowsHold_v8PageS1 (a.ofBits_toBits ..) (a.toBits_middle ..)
  | v8BlockS2 a hi nt lo =>
    obtain ⟨n, hn, rfl⟩ := runFormatWith_output h ht
    exact rowsHold_v8BlockS2 hn (a.ofBits_toBits ..) (a.toBits_block ..)
  | v8PageS2 a m =>
    cases runFormat_output h ht
    exact rowsHold_v8PageS2 (a.ofBits_toBits ..) (a.toBits_middle ..)
  | v8InvalidS1 hi p lo =>
    cases runFormat_output h ht
    exact rowsHold_v8InvalidS1 (v8InvalidS1_ranges hi p lo).2.1
  | v8InvalidS2 hi =>
    cases runFormat_output h ht
    simp [report, rowsV8InvalidS2, named]
  | v8Reserved hi =>
    cases runFormat_output h ht
    simp [report, rowsV8Reserved, named]
  | v9TableS1 o =>
    cases runFormat_output h ht
    exact rowsHold_v9TableS1 o.ofBits_toBits
  | v9TableS2 o =>
    cases runFormat_output h ht
    exact rowsHold_v9TableS2 o.ofBits_toBits
  | v9BlockPageS1 o =>
    cases runFormat_output h ht
    have hrows := rowsHold_v9LeafS1 (nv := nv11 s.ctx) (c := s.ctx) o.ofBits_toBits
    dsimp only [report]
    split <;> exact hrows
  | v9BlockPageS2 o =>
    cases runFormat_output h ht
    have hrows := rowsHold_v9LeafS2 (nv := nv11 s.ctx) (c := s.ctx) o.ofBits_toBits
    dsimp only [report]
    split <;> exact hrows
  | v9Invalid hi p lo v =>
    obtain ⟨cause, -, rfl⟩ := runFormatWith_output h ht
    exact rowsHold_v9Invalid (v9InvalidBits_ranges hi p lo v).2.1

end Sys2Proof.Machine
end

section
/-! PROOFS. What a VMSAv8-64 Block or Page descriptor yields at either stage (R130, R150, R151, R155): its address
part, which depends on the type, and around it the fields and the rows that Block and Page share. -/

namespace Sys2Proof.Machine

open Sys2Proof Sys2Proof.Claims

variable {s : State} {c : Ctx} {d : Desc64} {st : Stage}

/-! ### Where a Block has a format (R151, R152) -/

theorem blockRow_iff {n : Nat} : blockRow c n ↔ blockShiftV8 c = some n := by
  unfold blockRow blockShiftV8
  cases c.granule <;> grind

theorem blockShiftV8_eq_none_of_noBlockRow (hw : c.wf = true) (h3 : c.level < 3) (h : noBlockRow c) :
    blockShiftV8 c = none := by
  rw [blockShiftV8_eq_none_iff (c.wf_level hw).1 h3]
  simpa [Ctx.noV8BlockFormat, noBlockRow, or_assoc, and_assoc] using h

/-- The rule of a format that lacks a value it needs refuses by name. -/
theorem runFormatWith_none {α : Type} {why : Refusal} {f : α → Decoded} {p : Bool} (hw : s.ctx.wf = true)
    (hp : p = true) : s.runFormatWith p none why f = .refused why := by
  simp [State.runFormatWith, (check_none_iff _).2 hw, hp]

/-- Settles O5: without a row of R151 there is no low bound, which the decoder and both Block meanings need. -/
theorem v8BlockWithoutFormatIsRefused : Obligations.V8BlockWithoutFormatIsRefused := by
  rintro s st d ⟨hw, hsys, hs⟩ h3 hrow hty
  have hn := blockShiftV8_eq_none_of_noBlockRow hw h3 hrow
  have hdec : decodeDesc s.ctx (.d64 d) = .error .noBlockFormat := by
    simp [decodeDesc_d64_of_wf hw, decodeV8, classifyV8_type_01 hty, h3.ne, hn]
  refine ⟨hdec, by simp [outcomeOf, hdec, refusalOf], ?_, ?_⟩
  · rintro rfl a hi nt lo
    rw [exec, execV8BlockS1, hn]
    exact runFormatWith_none hw (by simp [Ctx.isFor, hsys, hs, h3])
  · rintro rfl a hi nt lo
    rw [exec, execV8BlockS2, hn]
    exact runFormatWith_none hw (by simp [Ctx.isFor, hsys, hs, h3])

/-! ### The address part of a Block or Page -/

/-- What the type of a Block or Page decides: OAB, its low bound, nT, the rows of bits [47:12] and bit [1]. -/
structure LeafPart where
  oab : BitVec 52
  n : Nat
  nT : Option Bit
  mid : List Row
  bit1 : Bool

/-- The address part of a Page (R150). -/
def pagePart (c : Ctx) (d : Desc64) : LeafPart where
  oab := addrV8 c d
  n := granuleBits c.granule
  nT := none
  mid := rows47_12 c .OAB
  bit1 := true

/-- The address part of a Block with the low bound `n` (R151). -/
def blockPart (c : Ctx) (d : Desc64) (n : Nat) : LeafPart where
  oab := oabBlockOf c n d
  n := n
  nT := presentIf c.FEAT_BBML1 (d.extractLsb' 16 1)
  mid := rowsBlock47_12 c n
  bit1 := false

/-- The descriptor is a Page, or a Block that has a format, with this address part. -/
inductive LeafPartAt (c : Ctx) (d : Desc64) : LeafPart → Prop
  | page (hl : c.level = 3) (hty : d.extractLsb' 0 2 = 0b11#2) : LeafPartAt c d (pagePart c d)
  | block {n : Nat} (hl : c.level < 3) (hn : blockShiftV8 c = some n) (hty : d.extractLsb' 0 2 = 0b01#2) :
    LeafPartAt c d (blockPart c d n)

theorem exists_leafPartAt (h : V8LeafAt s st d) : V8At s st ∧ ∃ p, LeafPartAt s.ctx d p := by
  obtain ⟨hat, h0, ⟨hl, h1⟩ | ⟨hl, h1, n, hrow⟩⟩ := h
  · exact ⟨hat, _, .page hl (extract_type_of_bits h0 h1)⟩
  · exact ⟨hat, _, .block hl (blockRow_iff.1 hrow) (extract_type_of_bits h0 h1)⟩

/-! ### The outcome at each stage -/

/-- The fields of a stage 1 Block or Page descriptor. -/
def leafS1Of (c : Ctx) (d : Desc64) (p : LeafPart) : V8LeafS1 := fieldsV8LeafS1 c (.ofBits d) p.oab p.n p.nT

/-- The field table of a stage 1 Block or Page descriptor. -/
def rowsLeafS1 (c : Ctx) (d : Desc64) (p : LeafPart) : List Row :=
  rowsV8LeafS1High c (d.extractLsb' 5 1) ++ p.mid ++ rowsV8LeafS1Low c p.bit1

/-- The fields of a stage 2 Block or Page descriptor. -/
def leafS2Of (c : Ctx) (d : Desc64) (p : LeafPart) : V8LeafS2 := fieldsV8LeafS2 c (.ofBits d) p.oab p.n p.nT

/-- The field table of a stage 2 Block or Page descriptor. -/
def rowsLeafS2 (c : Ctx) (d : Desc64) (p : LeafPart) : List Row :=
  rowsV8LeafS2High c (d.extractLsb' 55 1) ++ p.mid ++ rowsV8LeafS2Low c p.bit1

/-- A Block or Page outcome: its reports are those of its field table, its output address continues OAB. -/
def leafReport (s : State) (d : Desc64) (p : LeafPart) (r : Result) (rows : List Row) : Decoded :=
  report r rows d (.oa52 (formOA p.oab p.n s.ia))

/-- An instruction that a descriptor decodes to and that latches an outcome. -/
theorem yields_of_exec {i : Instr} {dec : Decoded} (hat : V8At s st)
    (hi : decodeDesc s.ctx (.d64 d) = .ok i)
    (hexec : i.wf s.ctx = true → exec i s = .next (s.deliver dec)) : Yields s (.d64 d) i dec :=
  ⟨hi, hexec (wf_of_decodeDesc (isOf_d64_iff.2 hat.2.1) hi)⟩

theorem yields_leafS1 {p : LeafPart} (hat : V8At s .S1) (hp : LeafPartAt s.ctx d p) :
    ∃ i r, leafS1 r = some (leafS1Of s.ctx d p)
      ∧ Yields s (.d64 d) i (leafReport s d p r (rowsLeafS1 s.ctx d p)) := by
  have hdec : decodeDesc s.ctx (.d64 d) = decodeV8 s.ctx d := decodeDesc_d64_of_wf hat.1 d
  simp only [decodeV8, hat.2.2] at hdec
  cases hp with
  | page hl hty =>
    refine ⟨.v8PageS1 (.ofBits d) (d.extractLsb' 12 36), .v8PageS1 _, rfl,
      yields_of_exec hat (by simp [hdec, classifyV8_type_11 hty, hl]) fun hwf => ?_⟩
    have h := execV8PageS1_next_iff.2 ⟨hwf, rfl⟩
    rwa [V8LeafS1Ops.toBits_ofBits d _ hty, V8LeafS1Ops.ofBits, oabPageV8_eq_addrV8] at h
  | block hl hn hty =>
    refine ⟨.v8BlockS1 (.ofBits d) (d.extractLsb' 17 31) (d.extractLsb' 16 1) (d.extractLsb' 12 4), .v8BlockS1 _, rfl,
      yields_of_exec hat (by simp [hdec, classifyV8_type_01 hty, hl.ne, hn]) fun hwf => ?_⟩
    have h := execV8BlockS1_next_iff.2 ⟨hwf, _, hn, rfl⟩
    rwa [blockMiddle_ofBits, V8LeafS1Ops.toBits_ofBits d _ hty] at h

theorem yields_leafS2 {p : LeafPart} (hat : V8At s .S2) (hp : LeafPartAt s.ctx d p) :
    ∃ i r, leafS2 r = some (leafS2Of s.ctx d p)
      ∧ Yields s (.d64 d) i (leafReport s d p r (rowsLeafS2 s.ctx d p)) := by
  have hdec : decodeDesc s.ctx (.d64 d) = decodeV8 s.ctx d := decodeDesc_d64_of_wf hat.1 d
  simp only [decodeV8, hat.2.2] at hdec
  cases hp with
  | page hl hty =>
    refine ⟨.v8PageS2 (.ofBits d) (d.extractLsb' 12 36), .v8PageS2 _, rfl,
      yields_of_exec hat (by simp [hdec, classifyV8_type_11 hty, hl]) fun hwf => ?_⟩
    have h := execV8PageS2_next_iff.2 ⟨hwf, rfl⟩
    rwa [V8LeafS2Ops.toBits_ofBits d _ hty, V8LeafS2Ops.ofBits, oabPageV8_eq_addrV8] at h
  | block hl hn hty =>
    refine ⟨.v8BlockS2 (.ofBits d) (d.extractLsb' 17 31) (d.extractLsb' 16 1) (d.extractLsb' 12 4), .v8BlockS2 _, rfl,
      yields_of_exec hat (by simp [hdec, classifyV8_type_01 hty, hl.ne, hn]) fun hwf => ?_⟩
    have h := execV8BlockS2_next_iff.2 ⟨hwf, _, hn, rfl⟩
    rwa [blockMiddle_ofBits, V8LeafS2Ops.toBits_ofBits d _ hty] at h

end Sys2Proof.Machine
end

section
/-! PROOFS. The class of one descriptor bit in a field table (R13): which row answers for it. -/

namespace Sys2Proof.Machine

open Sys2Proof Sys2Proof.Claims

variable {c : Ctx} {rs rs' : List Row}

theorem classAt_cons (hi lo k : Nat) (b : BitClass) :
    classAt (⟨hi, lo, b⟩ :: rs) k = if lo ≤ k ∧ k ≤ hi then some b else classAt rs k := by
  unfold classAt
  by_cases h : lo ≤ k ∧ k ≤ hi
  · simp [h]
  · rw [List.find?_cons_of_neg (by simpa using h), if_neg h]

/-- Rows above a bit do not answer for it. -/
theorem classAt_append {k : Nat} (h : ∀ r ∈ rs, k < r.lo) : classAt (rs ++ rs') k = classAt rs' k := by
  have hnone : (rs.find? fun r => decide (r.lo ≤ k) && decide (k ≤ r.hi)) = none := by
    simp only [List.find?_eq_none]
    intro r hr
    simp [Nat.not_le.2 (h r hr)]
  rw [classAt, List.find?_append, hnone, Option.none_or, classAt]

@[simp] theorem classIf_eq_iff (p : Bool) (a b x : BitClass) :
    classIf p a b = x ↔ (p = true ∧ a = x) ∨ (p = false ∧ b = x) := by
  cases p <;> simp [classIf]

@[simp] theorem bitField_ne_res0 (f : FieldName) : bitField f ≠ .res0 := nofun

@[simp] theorem bitField_ne_res1 (f : FieldName) : bitField f ≠ .res1 := nofun

/-! ### The three parts of a Block or Page table -/

variable {d : Desc64} {p : LeafPart}

theorem twelve_le_lo_of_mid (h : LeafPartAt c d p) : ∀ r ∈ p.mid, 12 ≤ r.lo := by
  cases h with
  | page =>
    unfold pagePart rows47_12
    cases c.granule <;> simp
  | block _ hn =>
    have := blockShiftV8_bounds hn
    simp [blockPart, rowsBlock47_12]
    omega

theorem fortyEight_le_lo_of_highS1 (ns : Bit) : ∀ r ∈ rowsV8LeafS1High c ns, 48 ≤ r.lo := by
  simp [rowsV8LeafS1High, row49_48]

theorem fortyEight_le_lo_of_highS2 (ns : Bit) : ∀ r ∈ rowsV8LeafS2High c ns, 48 ≤ r.lo := by
  simp [rowsV8LeafS2High, row49_48]

theorem classAt_leafS1_low (h : LeafPartAt c d p) {k : Nat} (hk : k < 12) :
    classAt (rowsLeafS1 c d p) k = classAt (rowsV8LeafS1Low c p.bit1) k := by
  unfold rowsLeafS1
  refine classAt_append fun r hr => ?_
  obtain hr | hr := List.mem_append.1 hr
  · exact (by omega : k < 48).trans_le (fortyEight_le_lo_of_highS1 _ r hr)
  · exact hk.trans_le (twelve_le_lo_of_mid h r hr)

theorem classAt_leafS2_low (h : LeafPartAt c d p) {k : Nat} (hk : k < 12) :
    classAt (rowsLeafS2 c d p) k = classAt (rowsV8LeafS2Low c p.bit1) k := by
  unfold rowsLeafS2
  refine classAt_append fun r hr => ?_
  obtain hr | hr := List.mem_append.1 hr
  · exact (by omega : k < 48).trans_le (fortyEight_le_lo_of_highS2 _ r hr)
  · exact hk.trans_le (twelve_le_lo_of_mid h r hr)

end Sys2Proof.Machine
end

section
/-! PROOFS. The conditions of the statements are those of the formats, and a report looks at these bits of a Block or
Page descriptor (R70, R71). -/

namespace Sys2Proof.Machine

open Sys2Proof Sys2Proof.Claims

variable {c : Ctx} {d : Desc64} {p : LeafPart}

/-! ### Conditions -/

theorem presentIf_eq_iff' {α : Type} (q : Bool) (v : α) : presentIf q v = iff' q v := rfl

theorem ds52_eq_wideDS (c : Ctx) : ds52 c = wideDS c := by
  unfold ds52 wideDS
  cases c.granule <;> simp

theorem nsPresent_eq_nsHere (c : Ctx) : nsPresent c = nsHere c := by
  unfold nsPresent nsHere realmEL2
  cases c.secstate <;> cases c.regime <;> rfl

theorem realmEL1_eq_realmEL10 (c : Ctx) : realmEL1 c = realmEL10 c := by
  simp [realmEL1, realmEL10]

theorem realmEL2_eq_realmEL2x (c : Ctx) : realmEL2 c = realmEL2x c := by
  simp [realmEL2, realmEL2x]

theorem decide_bit_zero {w : Nat} (d : BitVec w) (k : Nat) :
    decide (d.extractLsb' k 1 = 0#1) = !d.getLsbD k := by
  rw [← some1_bit, some1, Bool.not_not]

/-! ### The reports -/

theorem someZero_range {w : Nat} (d : BitVec w) (hi lo : Nat) (b : BitClass) :
    (Row.mk hi lo b).someZero d = some1 (~~~d.extractLsb' lo (hi + 1 - lo)) := by
  simp only [Row.someZero, some1, BitVec.not_eq_comm, BitVec.not_zero]

theorem someZero_bit {w : Nat} (d : BitVec w) (k : Nat) (b : BitClass) :
    (Row.mk k k b).someZero d = !d.getLsbD k := by
  have hbit : ∀ x : Bit, some1 (~~~x) = !some1 x := by decide
  rw [someZero_range, Nat.add_sub_cancel_left, hbit, some1_bit]

/-- The bits from `lo` up to a bound that is not among them. -/
theorem someOne_below {w n : Nat} (d : BitVec w) (lo : Nat) (b : BitClass) (hn : 1 ≤ n) :
    (Row.mk (n - 1) lo b).someOne d = some1 (d.extractLsb' lo (n - lo)) := by
  rw [someOne_range, Nat.sub_add_cancel hn]

/-- Bit [63] of a stage 1 Block or Page is RES0 in the Realm EL2 and EL2&0 regimes with NS = 1 (R131, R134). -/
@[simp] theorem isRes0_classV8LeafS1Bit63 (hi lo : Nat) (ns : Bit) :
    (Row.mk hi lo (classV8LeafS1Bit63 c ns)).isRes0 = (realmEL2 c && !decide (ns = 0#1)) := by
  unfold classV8LeafS1Bit63 realmEL2
  cases c.secstate with
  | Realm => cases c.regime <;> simp
  | _ => rfl

@[simp] theorem isRes1_classV8LeafS1Bit63 (hi lo : Nat) (ns : Bit) :
    (Row.mk hi lo (classV8LeafS1Bit63 c ns)).isRes1 = false := by
  unfold classV8LeafS1Bit63
  cases c.secstate with
  | Realm => cases c.regime <;> simp
  | _ => rfl

/-- The RES0 bits of the address region of a Block or Page (R150, R151). -/
theorem res0Violation_addressPart (h : LeafPartAt c d p) :
    res0Violation (row49_48 c .OAB :: p.mid) d
      = if c.level = 3 then addrRes0V8 c d
        else (!wideDS c && some1 (d.extractLsb' 48 2)) || some1 (d.extractLsb' 17 (p.n - 17))
          || (!c.FEAT_BBML1 && d.getLsbD 16) || (!wideLPA c && some1 (d.extractLsb' 12 4)) := by
  cases h with
  | page hl => rw [if_pos hl, pagePart, res0Violation_addressRows]
  | @block n hl hn =>
    have hn1 : 1 ≤ n := (by decide : 1 ≤ 18).trans (blockShiftV8_bounds hn).1
    have hlpa : lpa64 c = wideLPA c := rfl
    rw [if_neg hl.ne]
    simp [blockPart, rowsBlock47_12, row49_48, someOne_range _ 49, someOne_below, someOne_range _ 15, someOne_bit,
      ds52_eq_wideDS, hlpa, hn1, Bool.or_assoc]

theorem res0Violation_leafS1 (h : LeafPartAt c d p) :
    res0Violation (rowsLeafS1 c d p) d
      = ((realmEL2x c && d.getLsbD 5 && d.getLsbD 63)
        || (!c.s1_indirect && (nv11At c || !c.two_priv) && d.getLsbD 53)
        || (!c.FEAT_BTI && d.getLsbD 50)
        || (if c.level = 3 then addrRes0V8 c d
          else (!wideDS c && some1 (d.extractLsb' 48 2)) || some1 (d.extractLsb' 17 (p.n - 17))
            || (!c.FEAT_BBML1 && d.getLsbD 16) || (!wideLPA c && some1 (d.extractLsb' 12 4)))
        || (!c.two_priv && !decide (c.secstate = .Root) && d.getLsbD 11)
        || (!nsHere c && d.getLsbD 5)) := by
  have hnv : nv11 c = nv11At c := rfl
  rw [← res0Violation_addressPart h, Bool.and_comm (!c.two_priv)]
  simp [rowsLeafS1, rowsV8LeafS1High, rowsV8LeafS1Low, rowS1Leaf11, rowLeaf9_8, someOne_bit,
    decide_bit_zero, realmEL2_eq_realmEL2x, nsPresent_eq_nsHere, hnv, Bool.or_assoc]

theorem res1Violation_mid (h : LeafPartAt c d p) : res1Violation p.mid d = false := by
  cases h with
  | page => exact res1Violation_rows47_12 ..
  | block => simp [blockPart, rowsBlock47_12]

theorem res1Violation_leafS1 (h : LeafPartAt c d p) :
    res1Violation (rowsLeafS1 c d p) d = (!c.s1_indirect && !c.two_priv && !d.getLsbD 6) := by
  simp [rowsLeafS1, rowsV8LeafS1High, rowsV8LeafS1Low, row49_48, rowS1Leaf11, rowLeaf9_8, someZero_bit,
    res1Violation_mid h]

theorem res0Violation_leafS2 (h : LeafPartAt c d p) :
    res0Violation (rowsLeafS2 c d p) d
      = ((!(decide (c.secstate = .Realm) && !d.getLsbD 55) && d.getLsbD 63)
        || (!c.s2_indirect && !c.FEAT_XNX && d.getLsbD 53)
        || d.getLsbD 50
        || (if c.level = 3 then addrRes0V8 c d
          else (!wideDS c && some1 (d.extractLsb' 48 2)) || some1 (d.extractLsb' 17 (p.n - 17))
            || (!c.FEAT_BBML1 && d.getLsbD 16) || (!wideLPA c && some1 (d.extractLsb' 12 4)))
        || (!c.FEAT_XS && d.getLsbD 11)
        || (c.FWB && d.getLsbD 5)) := by
  rw [← res0Violation_addressPart h]
  simp [rowsLeafS2, rowsV8LeafS2High, rowsV8LeafS2Low, rowLeaf9_8, someOne_bit,
    decide_bit_zero, Bool.or_assoc]

theorem res1Violation_leafS2 (h : LeafPartAt c d p) : res1Violation (rowsLeafS2 c d p) d = false := by
  simp [rowsLeafS2, res1Violation_mid h]

end Sys2Proof.Machine
end

section
/-! PROOFS. The stage 1 VMSAv8-64 Block and Page (R134 to R137, R153): its fields and reports over the descriptor's
bits. -/

namespace Sys2Proof.Machine

open Sys2Proof Sys2Proof.Claims

variable {s : State} {d : Desc64}

theorem exists_yieldsLeafS1 (h : V8LeafAt s .S1 d) :
    ∃ p r, LeafPartAt s.ctx d p
      ∧ YieldsLeafS1 s d (leafReport s d p r (rowsLeafS1 s.ctx d p)) (leafS1Of s.ctx d p) := by
  obtain ⟨hat, p, hp⟩ := exists_leafPartAt h
  obtain ⟨i, r, hr, hy⟩ := yields_leafS1 hat hp
  exact ⟨p, r, hp, i, hy, hr⟩

/-- Settles O15: the conditions of the format are those of the statement. -/
theorem v8LeafStage1SecurityFields : Obligations.V8LeafStage1SecurityFields := by
  intro s d h
  obtain ⟨p, r, -, hy⟩ := exists_yieldsLeafS1 h
  refine ⟨_, _, hy, ?_, ?_, ?_⟩
  · rw [← nsPresent_eq_nsHere]
    rfl
  · rw [← realmEL1_eq_realmEL10]
    rfl
  · rw [← realmEL2_eq_realmEL2x, ← decide_bit_zero]
    rfl

/-- Settles O16: each bit of PBHA is its bit of the range [62:60] or bit [59]. -/
theorem v8LeafStage1IndexFields : Obligations.V8LeafStage1IndexFields := by
  intro s d h
  obtain ⟨p, r, -, hy⟩ := exists_yieldsLeafS1 h
  refine ⟨_, _, hy, ?_⟩
  simp [leafS1Of, fieldsV8LeafS1, V8LeafS1Ops.ofBits, presentIf_eq_iff', pbhaOn, extract_extract, Bool.and_assoc]

/-- Settles O17: the fields by the three controls that select them; bits [53] and [6] by their rows. -/
theorem v8LeafStage1PermissionFields : Obligations.V8LeafStage1PermissionFields := by
  intro s d h
  obtain ⟨p, r, hp, hy⟩ := exists_yieldsLeafS1 h
  have hnv : nv11 s.ctx = nv11At s.ctx := rfl
  refine ⟨_, _, hy, ?_, ?_, ?_⟩
  · cases hi : s.ctx.s1_indirect <;> cases hv : nv11At s.ctx <;> cases ht : s.ctx.two_priv <;>
      simp [leafS1Of, fieldsV8LeafS1, V8LeafS1Ops.ofBits, presentIf, iff', hnv, hi, hv, ht]
  · cases hv : nv11At s.ctx <;>
      simp [leafReport, report, rowsLeafS1, rowsV8LeafS1High, classAt_cons, hnv, hv]
  · simp [leafReport, report, classAt_leafS1_low hp, rowsV8LeafS1Low, rowS1Leaf11, rowLeaf9_8, classAt_cons]

/-- Settles O18: each field is read from its range under its condition. -/
theorem v8LeafStage1AttributeFields : Obligations.V8LeafStage1AttributeFields := by
  intro s d h
  obtain ⟨p, r, -, hy⟩ := exists_yieldsLeafS1 h
  refine ⟨_, _, hy, ?_⟩
  simp [leafS1Of, fieldsV8LeafS1, V8LeafS1Ops.ofBits, presentIf_eq_iff', nsePresent, ngPresent, ds52_eq_wideDS]

/-- Settles O19: the reports are those of the three parts of the field table. -/
theorem v8LeafStage1Reports : Obligations.V8LeafStage1Reports := by
  intro s d h
  obtain ⟨p, r, hp, hy⟩ := exists_yieldsLeafS1 h
  exact ⟨_, _, hy, res0Violation_leafS1 hp, res1Violation_leafS1 hp⟩

end Sys2Proof.Machine
end

section
/-! PROOFS. The stage 2 VMSAv8-64 Block and Page (R158 to R162): its fields and reports over the descriptor's bits. -/

namespace Sys2Proof.Machine

open Sys2Proof Sys2Proof.Claims

variable {s : State} {d : Desc64}

theorem exists_yieldsLeafS2 (h : V8LeafAt s .S2 d) :
    ∃ p r, LeafPartAt s.ctx d p
      ∧ YieldsLeafS2 s d (leafReport s d p r (rowsLeafS2 s.ctx d p)) (leafS2Of s.ctx d p) := by
  obtain ⟨hat, p, hp⟩ := exists_leafPartAt h
  obtain ⟨i, r, hr, hy⟩ := yields_leafS2 hat hp
  exact ⟨p, r, hp, i, hy, hr⟩

/-- Settles O20: NS and AMEC are read in Realm state; an accepted context has no stage 2 in Root state. -/
theorem v8LeafStage2SecurityFields : Obligations.V8LeafStage2SecurityFields := by
  intro s d h
  obtain ⟨p, r, -, hy⟩ := exists_yieldsLeafS2 h
  obtain ⟨⟨hw, -, hs⟩, -⟩ := h
  have hroot : s.ctx.secstate ≠ .Root := fun hr => by simp [(Ctx.wf_root hw hr).2] at hs
  refine ⟨_, _, hy, rfl, ?_, hroot⟩
  rw [← decide_bit_zero]
  rfl

/-- Settles O21: POIndex is bits [62:60] and [59] together, else each bit is PBHA or the System MMU's. -/
theorem v8LeafStage2IndexFields : Obligations.V8LeafStage2IndexFields := by
  intro s d h
  obtain ⟨p, r, -, hy⟩ := exists_yieldsLeafS2 h
  have hpo : d.extractLsb' 60 3 ++ db d 59 = d.extractLsb' 59 4 :=
    BitVec.extractLsb'_append_extractLsb'_eq_extractLsb' rfl
  refine ⟨_, _, hy, ?_⟩
  simp [leafS2Of, fieldsV8LeafS2, V8LeafS2Ops.ofBits, presentIf_eq_iff', pbhaOn, extract_extract, hpo,
    Bool.and_assoc]

/-- Settles O22: the permission fields by the two controls that select them; bits [53] and [50] by their rows. -/
theorem v8LeafStage2PermissionFields : Obligations.V8LeafStage2PermissionFields := by
  intro s d h
  obtain ⟨p, r, -, hy⟩ := exists_yieldsLeafS2 h
  refine ⟨_, _, hy, rfl, rfl, rfl, ?_, ?_, rfl, ?_⟩
  · cases hi : s.ctx.s2_indirect <;> cases hx : s.ctx.FEAT_XNX <;>
      simp [leafS2Of, fieldsV8LeafS2, V8LeafS2Ops.ofBits, presentIf, hi, hx]
  · simp [leafReport, report, rowsLeafS2, rowsV8LeafS2High, classAt_cons]
  · simp [leafReport, report, rowsLeafS2, rowsV8LeafS2High, classAt_cons]

/-- Settles O23: the fields are read under the conditions of their rows. -/
theorem v8LeafStage2AttributeFields : Obligations.V8LeafStage2AttributeFields := by
  intro s d h
  obtain ⟨p, r, hp, hy⟩ := exists_yieldsLeafS2 h
  have hrow {k : Nat} (hk : k < 12) :
      classAt (leafReport s d p r (rowsLeafS2 s.ctx d p)).rows k = classAt (rowsV8LeafS2Low s.ctx p.bit1) k :=
    classAt_leafS2_low hp hk
  refine ⟨_, _, hy, rfl, ?_, rfl, ?_, fun k h8 h9 => ?_, rfl, rfl, ?_⟩
  · simp [hrow, rowsV8LeafS2Low, classAt_cons]
  · simp [leafS2Of, fieldsV8LeafS2, V8LeafS2Ops.ofBits, presentIf_eq_iff', ds52_eq_wideDS]
  · obtain rfl | rfl : k = 8 ∨ k = 9 := by omega
    all_goals simp [hrow, rowsV8LeafS2Low, rowLeaf9_8, classAt_cons, ds52_eq_wideDS]
  · simp [hrow, rowsV8LeafS2Low, rowLeaf9_8, classAt_cons]

/-- Settles O24: the reports are those of the three parts of the field table. -/
theorem v8LeafStage2Reports : Obligations.V8LeafStage2Reports := by
  intro s d h
  obtain ⟨p, r, hp, hy⟩ := exists_yieldsLeafS2 h
  exact ⟨_, _, hy, res0Violation_leafS2 hp, res1Violation_leafS2 hp⟩

end Sys2Proof.Machine
end

section
/-! PROOFS. The address of a VMSAv8-64 Block or Page (R59, R150, R151): OAB bit by bit, the output address, and the
classes of the address rows, at either stage. -/

namespace Sys2Proof.Machine

open Sys2Proof Sys2Proof.Claims

variable {s : State} {c : Ctx} {d : Desc64} {st : Stage} {p : LeafPart}

/-! ### OAB and the output address -/

/-- OAB[51:48] as the layout of the granule gives it; zero for a 48-bit address (R104, R151). -/
def topBits (c : Ctx) (d : Desc64) : BitVec 4 :=
  if wideDS c then d.extractLsb' 8 2 ++ d.extractLsb' 48 2 else if wideLPA c then d.extractLsb' 12 4 else 0#4

theorem blockHi4_eq_topBits (c : Ctx) (d : Desc64) :
    blockHi4 c (d.extractLsb' 48 2) (d.extractLsb' 12 4) (d.extractLsb' 8 2) = topBits c d := by
  unfold blockHi4 topBits wideDS wideLPA
  cases c.granule <;> simp

theorem oabBlockOf_top (c : Ctx) (n : Nat) (d : Desc64) :
    (oabBlockOf c n d).extractLsb' 48 4 = topBits c d := by
  rw [oabBlockOf, oabBlockV8, extract_high_append, blockHi4_eq_topBits]

/-- Below bit `n` an address aligned to `2 ^ n` is zero. -/
theorem getLsbD_of_dvd {w n k : Nat} {a : BitVec w} (h : 2 ^ n ∣ a.toNat) (hk : k < n) : a.getLsbD k = false := by
  have hbit := congrArg (BitVec.getLsbD · k) ((dvd_toNat_iff a n).1 h)
  simpa [hk] using hbit

theorem formOA_appended {w : Nat} (base : BitVec w) (n : Nat) (ia : BitVec 64) :
    appended (formOA base n ia) base n ia := by
  intro k hk
  by_cases hn : k < n
  · simp [formOA, hk, hn]
  · simp [formOA, hk, hn, Nat.add_sub_cancel' (Nat.not_lt.1 hn)]

/-- The output address as a concatenation. -/
theorem formOA_eq_append (m n : Nat) (base : BitVec (m + n)) (ia : BitVec 64) :
    formOA base n ia = base.extractLsb' n m ++ ia.extractLsb' 0 n := by
  refine BitVec.eq_of_getLsbD_eq fun k hk => ?_
  rw [formOA_appended base n ia k hk, BitVec.getLsbD_append]
  by_cases hn : k < n
  · simp [hn]
  · simp [hn, show k - n < m by omega, Nat.add_sub_cancel' (Nat.not_lt.1 hn)]

/-! ### Either stage -/

theorem leafAddrV8_of_leafS1 {r : Result} {f : V8LeafS1} (h : leafS1 r = some f) :
    leafAddrV8 r = some (f.OAB, f.n, f.nT) := by
  cases r with
  | v8BlockS1 | v8PageS1 =>
    cases h
    rfl
  | _ => cases h

theorem leafAddrV8_of_leafS2 {r : Result} {f : V8LeafS2} (h : leafS2 r = some f) :
    leafAddrV8 r = some (f.OAB, f.n, f.nT) := by
  cases r with
  | v8BlockS2 | v8PageS2 =>
    cases h
    rfl
  | _ => cases h

/-- A field table has these address rows, at bits [49:12], between its rows above and below. -/
def HasAddressRows (c : Ctx) (mid rows : List Row) : Prop :=
  ∃ high low, rows = high ++ (row49_48 c .OAB :: mid ++ low) ∧ ∀ r ∈ high, 50 ≤ r.lo

theorem rowsLeafS1_hasAddressRows (c : Ctx) (d : Desc64) (p : LeafPart) :
    HasAddressRows c p.mid (rowsLeafS1 c d p) := by
  refine ⟨(rowsV8LeafS1High c (d.extractLsb' 5 1)).dropLast, rowsV8LeafS1Low c p.bit1, ?_, ?_⟩
  · simp [rowsLeafS1, rowsV8LeafS1High]
  · simp [rowsV8LeafS1High]

theorem rowsLeafS2_hasAddressRows (c : Ctx) (d : Desc64) (p : LeafPart) :
    HasAddressRows c p.mid (rowsLeafS2 c d p) := by
  refine ⟨(rowsV8LeafS2High c (d.extractLsb' 55 1)).dropLast, rowsV8LeafS2Low c p.bit1, ?_, ?_⟩
  · simp [rowsLeafS2, rowsV8LeafS2High]
  · simp [rowsV8LeafS2High]

theorem exists_yields_leaf (hat : V8At s st) (hp : LeafPartAt s.ctx d p) :
    ∃ i r rows, Yields s (.d64 d) i (leafReport s d p r rows) ∧ leafAddrV8 r = some (p.oab, p.n, p.nT)
      ∧ HasAddressRows s.ctx p.mid rows := by
  cases st with
  | S1 =>
    obtain ⟨i, r, hr, hy⟩ := yields_leafS1 hat hp
    exact ⟨i, r, _, hy, leafAddrV8_of_leafS1 hr, rowsLeafS1_hasAddressRows ..⟩
  | S2 =>
    obtain ⟨i, r, hr, hy⟩ := yields_leafS2 hat hp
    exact ⟨i, r, _, hy, leafAddrV8_of_leafS2 hr, rowsLeafS2_hasAddressRows ..⟩

/-! ### The classes of the address rows -/

variable {mid rows : List Row} {k : Nat}

theorem HasAddressRows.classAt_49_48 (h : HasAddressRows c mid rows) (h48 : 48 ≤ k) (h49 : k ≤ 49) :
    classAt rows k = some .res0 ↔ wideDS c = false := by
  obtain ⟨high, low, rfl, hhigh⟩ := h
  rw [classAt_append fun r hr => (by omega : k < 50).trans_le (hhigh r hr)]
  simp [row49_48, classAt_cons, h48, h49, ds52_eq_wideDS]

theorem HasAddressRows.exists_classAt (h : HasAddressRows c mid rows) :
    ∃ low, ∀ k < 48, classAt rows k = classAt (mid ++ low) k := by
  obtain ⟨high, low, rfl, hhigh⟩ := h
  refine ⟨low, fun k hk => ?_⟩
  rw [classAt_append fun r hr => (by omega : k < 50).trans_le (hhigh r hr)]
  simp [row49_48, classAt_cons, hk]

theorem HasAddressRows.classAt_page (h : HasAddressRows c (rows47_12 c .OAB) rows) (h12 : 12 ≤ k) (h47 : k ≤ 47) :
    classAt rows k = some .res0
      ↔ (c.granule = .G16K ∧ k ≤ 13) ∨ (c.granule = .G64K ∧ c.FEAT_LPA = false ∧ k ≤ 15) := by
  obtain ⟨low, hlow⟩ := h.exists_classAt
  rw [hlow k (by omega)]
  unfold rows47_12
  cases hg : c.granule with
  | G4K => simp [classAt_cons, h12, h47]
  | G16K =>
    obtain hk | hk : k ≤ 13 ∨ 14 ≤ k := by omega
    · simp [classAt_cons, h12, hk, show ¬ 14 ≤ k by omega]
    · simp [classAt_cons, h47, hk, show ¬ k ≤ 13 by omega]
  | G64K =>
    obtain hk | hk : k ≤ 15 ∨ 16 ≤ k := by omega
    · simp [classAt_cons, h12, hk, show ¬ 16 ≤ k by omega]
    · simp [classAt_cons, h47, hk, show ¬ k ≤ 15 by omega]

theorem HasAddressRows.classAt_block {n : Nat} (h : HasAddressRows c (rowsBlock47_12 c n) rows)
    (hn : 18 ≤ n ∧ n ≤ 47) :
    (∀ k, 17 ≤ k → k < n → classAt rows k = some .res0)
      ∧ (classAt rows 16 = some .res0 ↔ c.FEAT_BBML1 = false)
      ∧ (∀ k, 12 ≤ k → k ≤ 15 → (classAt rows k = some .res0 ↔ wideLPA c = false)) := by
  obtain ⟨low, hlow⟩ := h.exists_classAt
  have hlpa : lpa64 c = wideLPA c := rfl
  unfold rowsBlock47_12 at hlow
  refine ⟨fun k h17 hk => ?_, ?_, fun k h12 h15 => ?_⟩
  · rw [hlow k (by omega)]
    simp [classAt_cons, h17, show ¬ n ≤ k by omega, show k ≤ n - 1 by omega]
  · rw [hlow 16 (by decide)]
    simp [classAt_cons, show ¬ n ≤ 16 by omega]
  · rw [hlow k (by omega)]
    simp [classAt_cons, hlpa, h12, h15, show ¬ n ≤ k by omega, show ¬ 17 ≤ k by omega, show ¬ 16 ≤ k by omega]

/-! ### The statements -/

/-- Settles O25: a Page's OAB is the address of the granule, and its low bound is the granule size. -/
theorem v8PageOutputAddress : Obligations.V8PageOutputAddress := by
  intro s st d hat hl hty
  obtain ⟨i, r, rows, hy, haddr, hrows⟩ := exists_yields_leaf hat (.page hl hty)
  refine ⟨i, _, hy, haddr, congrArg OutputAddress.oa52 ?_, fun k => hrows.classAt_49_48,
    fun k => hrows.classAt_page⟩
  unfold pagePart granuleBits
  cases s.ctx.granule with
  | G4K => exact formOA_eq_append 40 12 _ _
  | G16K => exact formOA_eq_append 38 14 _ _
  | G64K => exact formOA_eq_append 36 16 _ _

theorem level_lt_three_of_blockShiftV8 {n : Nat} (h : blockShiftV8 c = some n) : c.level < 3 := by
  unfold blockShiftV8 at h
  cases hg : c.granule <;> grind

/-- Settles O26: a Block's OAB is zero below its low bound `n`, the descriptor up to bit 47 and the top bits of
its layout. -/
theorem v8BlockOutputAddress : Obligations.V8BlockOutputAddress := by
  intro s st d n hat hrow hty
  have hn := blockRow_iff.1 hrow
  have hb := blockShiftV8_bounds hn
  obtain ⟨i, r, rows, hy, haddr, hrows⟩ :=
    exists_yields_leaf hat (.block (level_lt_three_of_blockShiftV8 hn) hn hty)
  have hzero (k) (hk : k < n) : (oabBlockOf s.ctx n d).getLsbD k = false :=
    getLsbD_of_dvd (oabBlockV8_aligned (by omega) ..) hk
  have hmid (k) (hk : n ≤ k) (h48 : k < 48) : (oabBlockOf s.ctx n d).getLsbD k = d.getLsbD k := by
    have hbit := oabBlockOf_middle (c := s.ctx) (d := d) (by omega : 17 ≤ n) k hk (by omega)
    simpa [bitOf, show k < 52 by omega, Nat.add_sub_cancel' hk] using hbit
  exact ⟨i, _, _, _, hy, haddr, hzero, hmid, oabBlockOf_top .., rfl, formOA_appended _ _ _,
    hrows.classAt_block hb⟩

end Sys2Proof.Machine
end

section
/-! PROOFS. Which field bits the rows of a field table name (R13, R80), and which bits of a result are present. -/

namespace Sys2Proof.Machine

open Sys2Proof Sys2Proof.Claims

variable {f g : FieldName} {k hi lo : Nat}

/-! ### The field bits that a row names -/

/-- A class names bit `k` of the field `f`. -/
def ClassNames (b : BitClass) (f : FieldName) (k : Nat) : Prop :=
  ∃ hi lo, named b = some (f, hi, lo) ∧ lo ≤ k ∧ k ≤ hi

/-- Some row of a field table names bit `k` of the field `f`. -/
def RowsName (rows : List Row) (f : FieldName) (k : Nat) : Prop := ∃ r ∈ rows, ClassNames r.cls f k

section Rows
variable {rs rs' : List Row} {b : BitClass}

@[simp] theorem rowsName_nil : ¬ RowsName [] f k := by
  simp [RowsName]

@[simp] theorem rowsName_cons : RowsName (⟨hi, lo, b⟩ :: rs) f k ↔ ClassNames b f k ∨ RowsName rs f k := by
  simp [RowsName]

@[simp] theorem rowsName_append : RowsName (rs ++ rs') f k ↔ RowsName rs f k ∨ RowsName rs' f k := by
  simp [RowsName, or_and_right, exists_or]

theorem RowsName.mono (h : RowsName rs f k) (hsub : rs ⊆ rs') : RowsName rs' f k :=
  h.imp fun _ hr => hr.imp_left (hsub ·)

end Rows

@[simp] theorem classNames_classIf {p : Bool} {a b : BitClass} :
    ClassNames (classIf p a b) f k ↔ (p = true ∧ ClassNames a f k) ∨ (p = false ∧ ClassNames b f k) := by
  cases p <;> simp [classIf]

@[simp] theorem classNames_field : ClassNames (.field g hi lo) f k ↔ g = f ∧ lo ≤ k ∧ k ≤ hi := by
  simp [ClassNames, named, and_assoc]

@[simp] theorem classNames_field_bit : ClassNames (.field g lo lo) f k ↔ g = f ∧ k = lo := by
  rw [classNames_field]
  exact and_congr_right fun _ => by omega

@[simp] theorem classNames_software : ClassNames (.software g hi lo) f k ↔ g = f ∧ lo ≤ k ∧ k ≤ hi := by
  simp [ClassNames, named, and_assoc]

@[simp] theorem classNames_systemMmu : ClassNames (.systemMmu g hi lo) f k ↔ g = f ∧ lo ≤ k ∧ k ≤ hi := by
  simp [ClassNames, named, and_assoc]

@[simp] theorem classNames_bitField : ClassNames (bitField g) f k ↔ g = f ∧ k = 0 := by
  simp [bitField]

@[simp] theorem classNames_res0 : ¬ ClassNames .res0 f k := nofun
@[simp] theorem classNames_res1 : ¬ ClassNames .res1 f k := nofun
@[simp] theorem classNames_ignored : ¬ ClassNames .ignored f k := nofun
@[simp] theorem classNames_noRow : ¬ ClassNames .noRow f k := nofun
@[simp] theorem classNames_typeBit {v : Bool} : ¬ ClassNames (.typeBit v) f k := nofun

/-- Bit [63] of a stage 1 Block or Page names the software field or AMEC (R131, R134). -/
@[simp] theorem classNames_classV8LeafS1Bit63 {c : Ctx} {ns : Bit} :
    ClassNames (classV8LeafS1Bit63 c ns) f k
      ↔ ((c.secstate = .NonSecure ∨ realmEL1 c = true) ∧ .sw63 = f ∧ k = 0)
        ∨ (realmEL2 c = true ∧ ns = 0#1 ∧ .AMEC = f ∧ k = 0) := by
  unfold classV8LeafS1Bit63 realmEL1 realmEL2
  cases c.secstate with
  | Realm => cases c.regime <;> simp
  | _ => simp

/-! ### The bits that are present -/

@[simp] theorem isSome_bitOf {w : Nat} {v : BitVec w} : (bitOf v k).isSome = true ↔ k < w := by
  simp [bitOf]

@[simp] theorem isSome_bitOf?_ite {w : Nat} {q : Prop} [Decidable q] {x y : Option (BitVec w)} :
    (bitOf? (if q then x else y) k).isSome = true
      ↔ (q ∧ (bitOf? x k).isSome = true) ∨ (¬ q ∧ (bitOf? y k).isSome = true) := by
  by_cases h : q <;> simp [h]

@[simp] theorem isSome_ite {α : Type} {q : Prop} [Decidable q] {x y : Option α} :
    (if q then x else y).isSome = true ↔ (q ∧ x.isSome = true) ∨ (¬ q ∧ y.isSome = true) := by
  by_cases h : q <;> simp [h]

@[simp] theorem bitOf?_none {w : Nat} : bitOf? (none : Option (BitVec w)) k = none := rfl

@[simp] theorem isSome_bitOfBits_nil : ¬ (bitOfBits [] k).isSome = true := by
  simp [bitOfBits]

@[simp] theorem isSome_bitOfBits_cons {v : Option Bit} {vs : List (Option Bit)} :
    (bitOfBits (v :: vs) k).isSome = true
      ↔ (k = 0 ∧ (bitOf? v 0).isSome = true) ∨ ∃ j, k = j + 1 ∧ (bitOfBits vs j).isSome = true := by
  cases k <;> simp [bitOfBits]

theorem isSome_bitOfBits_four {v₀ v₁ v₂ v₃ : Option Bit} :
    (bitOfBits [v₀, v₁, v₂, v₃] k).isSome = true
      ↔ (k = 0 ∧ (bitOf? v₀ 0).isSome = true) ∨ (k = 1 ∧ (bitOf? v₁ 0).isSome = true)
        ∨ (k = 2 ∧ (bitOf? v₂ 0).isSome = true) ∨ (k = 3 ∧ (bitOf? v₃ 0).isSome = true) := by
  simp [and_or_left, exists_or]

/-! ### Accounting for a result -/

/-- Every field bit of a result is named by a row, or is a zero address bit, or is the constant UXN = 0 of
{NV, NV1} = {1, 1} with direct permissions (R136). -/
def Accounted (c : Ctx) (rows : List Row) (field : FieldName → Nat → Option Bool) : Prop :=
  ∀ f k b, field f k = some b →
    RowsName rows f k ∨ ((f = .NLTA ∨ f = .OAB) ∧ b = false)
      ∨ (f = .UXN ∧ b = false ∧ nv11At c = true ∧ c.s1_indirect = false)

/-- It is enough to name the bits of UXN but for that constant, the address bits that are not zero, and every bit of
the other fields. -/
theorem Accounted.of_named {c : Ctx} {rows : List Row} {field : FieldName → Nat → Option Bool}
    (huxn : ∀ k b, field .UXN k = some b →
      RowsName rows .UXN k ∨ (b = false ∧ nv11At c = true ∧ c.s1_indirect = false))
    (h : ∀ f k, f ≠ .UXN → (field f k).isSome = true → (f = .NLTA ∨ f = .OAB → field f k = some true) →
      RowsName rows f k) : Accounted c rows field := by
  intro f k b hb
  by_cases hu : f = .UXN
  · subst hu
    exact (huxn k b hb).imp_right fun hconst => .inr ⟨rfl, hconst⟩
  by_cases hzero : (f = .NLTA ∨ f = .OAB) ∧ b = false
  · exact .inr (.inl hzero)
  · refine .inl (h f k hu (by simp [hb]) fun hf => ?_)
    rw [hb, Bool.eq_true_of_not_eq_false fun hfalse => hzero ⟨hf, hfalse⟩]

end Sys2Proof.Machine
end

section
/-! PROOFS. The address bits that are not zero are named by the address rows (R104, R150, R151, R194, R226). -/

namespace Sys2Proof.Machine

open Sys2Proof Sys2Proof.Claims

variable {c : Ctx} {f g : FieldName} {k : Nat} {b : Bool}

theorem lt_and_getLsbD_of_bitOf {w : Nat} {v : BitVec w} (h : bitOf v k = some b) :
    k < w ∧ v.getLsbD k = b := by
  unfold bitOf at h
  split at h
  · next hk => exact ⟨hk, Option.some.inj h⟩
  · cases h

/-! ### VMSAv8-64 -/

section V8
variable {d : Desc64} {p : LeafPart}

theorem addrV8_top (c : Ctx) (d : Desc64) : (addrV8 c d).extractLsb' 48 4 = topBits c d := by
  unfold addrV8 topBits wideDS wideLPA
  cases c.granule <;> cases c.DS <;> cases c.FEAT_LPA <;>
    · simp (disch := omega) only [BitVec.extractLsb'_append_eq_of_le]
      simp

theorem topBits_eq_zero (hds : ds52 c = false) (hlpa : lpa64 c = false) : topBits c d = 0#4 := by
  rw [ds52_eq_wideDS] at hds
  have hlpa : wideLPA c = false := hlpa
  simp [topBits, hds, hlpa]

/-- Where the bits of a 52-bit address that are not zero lie, if it is aligned to `2 ^ n`. -/
theorem nonzero_bit_of_addr {a : BitVec 52} {n : Nat} (ha : 2 ^ n ∣ a.toNat)
    (htop : a.extractLsb' 48 4 = topBits c d) (h : bitOf a k = some true) :
    (n ≤ k ∧ k ≤ 47) ∨ ((ds52 c = true ∨ lpa64 c = true) ∧ 48 ≤ k ∧ k ≤ 51) := by
  obtain ⟨hk, hbit⟩ := lt_and_getLsbD_of_bitOf h
  have hn : n ≤ k := by
    by_contra hlt
    simp [getLsbD_of_dvd ha (Nat.lt_of_not_le hlt)] at hbit
  rcases Nat.lt_or_ge k 48 with h48 | h48
  · exact .inl ⟨hn, by omega⟩
  · refine .inr ⟨?_, h48, by omega⟩
    by_contra hnone
    simp only [not_or, Bool.not_eq_true] at hnone
    rw [topBits_eq_zero hnone.1 hnone.2] at htop
    have hzero := congrArg (BitVec.getLsbD · (k - 48)) htop
    simp [show k - 48 < 4 by omega, Nat.add_sub_cancel' h48, hbit] at hzero

@[simp] theorem rowsName_rows47_12 :
    RowsName (rows47_12 c g) f k
      ↔ g = f ∧ ((granuleBits c.granule ≤ k ∧ k ≤ 47) ∨ (lpa64 c = true ∧ 48 ≤ k ∧ k ≤ 51)) := by
  unfold rows47_12 lpa64 granuleBits
  cases c.granule with
  | G4K | G16K => simp
  | G64K => simp [and_or_left, and_left_comm]

theorem rowsName_rowsBlock47_12 {n : Nat} :
    RowsName (rowsBlock47_12 c n) f k
      ↔ (.OAB = f ∧ n ≤ k ∧ k ≤ 47) ∨ (c.FEAT_BBML1 = true ∧ .nT = f ∧ k = 0)
        ∨ (lpa64 c = true ∧ .OAB = f ∧ 48 ≤ k ∧ k ≤ 51) := by
  simp [rowsBlock47_12]

/-- A bit of a Table or Page address that is not zero is named by a row of bits [49:48], [47:12] or [9:8]
(R104, R150). -/
theorem addrV8_bit_named (h : bitOf (addrV8 c d) k = some true) :
    RowsName (rows47_12 c f) f k ∨ (ds52 c = true ∧ 48 ≤ k ∧ k ≤ 51) := by
  have ha : 2 ^ granuleBits c.granule ∣ (addrV8 c d).toNat := by
    rw [← granuleAddrV8_eq_addrV8]
    exact granuleAddrV8_aligned ..
  have hwhere := nonzero_bit_of_addr ha (addrV8_top c d) h
  rw [rowsName_rows47_12]
  tauto

/-- The same of the OAB of a Block or Page (R150, R151). -/
theorem oab_bit_named (hp : LeafPartAt c d p) (h : bitOf p.oab k = some true) :
    RowsName p.mid .OAB k ∨ (ds52 c = true ∧ 48 ≤ k ∧ k ≤ 51) := by
  cases hp with
  | page => exact addrV8_bit_named h
  | @block n hl hn =>
    have hb := blockShiftV8_bounds hn
    have hwhere := nonzero_bit_of_addr (oabBlockV8_aligned (by omega) ..) (oabBlockOf_top c n d) h
    rw [blockPart, rowsName_rowsBlock47_12]
    tauto

/-- The bits of an address are named by its rows in bits [47:12] and, with the 52-bit layout, by those of bits [49:48]
and [9:8]. -/
theorem rowsName_of_address {mid rows : List Row} (b : BitClass)
    (h : RowsName mid f k ∨ (ds52 c = true ∧ 48 ≤ k ∧ k ≤ 51)) (hmid : mid ⊆ rows)
    (h49 : row49_48 c f ∈ rows) (h9 : ⟨9, 8, classIf (ds52 c) (.field f 51 50) b⟩ ∈ rows) :
    RowsName rows f k := by
  obtain h | ⟨hds, hlower, hupper⟩ := h
  · exact h.mono hmid
  by_cases hk : k ≤ 49
  · exact ⟨_, h49, by simp [row49_48, hds, hlower, hk]⟩
  · exact ⟨_, h9, by simp [hds, hupper, show 50 ≤ k by omega]⟩

/-- nT of a Block is bit [16] (R151); a Page has none. -/
theorem nT_named (hp : LeafPartAt c d p) (h : (bitOf? p.nT k).isSome = true) : RowsName p.mid .nT k := by
  cases hp with
  | page => cases h
  | block =>
    rw [blockPart, rowsName_rowsBlock47_12]
    simpa [blockPart] using h

end V8

/-! ### VMSAv9-128 -/

@[simp] theorem rowsName_rows55_12 :
    RowsName (rows55_12 c g) f k ↔ g = f ∧ granuleBits c.granule ≤ k ∧ k ≤ 55 := by
  unfold rows55_12 granuleBits
  cases c.granule <;> simp

theorem granuleAddrV9_bit_named {m : BitVec 44} (h : bitOf (granuleAddrV9 c m) k = some true) :
    RowsName (rows55_12 c f) f k := by
  obtain ⟨hk, hbit⟩ := lt_and_getLsbD_of_bitOf h
  have hn : granuleBits c.granule ≤ k := by
    by_contra hlt
    simp [getLsbD_of_dvd (granuleAddrV9_aligned m) (Nat.lt_of_not_le hlt)] at hbit
  simpa [hn] using Nat.lt_succ_iff.1 hk
end Sys2Proof.Machine
end

section
/-! PROOFS. No field bit is invented, format by format: each field that a decode rule yields is named by a row of its
field table. -/

namespace Sys2Proof.Machine

open Sys2Proof Sys2Proof.Claims

variable {s t : State} {c : Ctx}

/-! ### VMSAv8-64 Block and Page descriptors -/

section V8Leaf
variable {d : Desc64} {p : LeafPart}

theorem uxn_named_or_constant {k : Nat} {b : Bool} (ns : Bit)
    (h : (leafS1Of c d p).fieldBit .UXN k = some b) :
    RowsName (rowsV8LeafS1High c ns) .UXN k ∨ (b = false ∧ nv11At c = true ∧ c.s1_indirect = false) := by
  have hconst : nv11 c = nv11At c := rfl
  cases hi : c.s1_indirect with
  | true => simp [V8LeafS1.fieldBit, leafS1Of, fieldsV8LeafS1, hi] at h
  | false =>
    cases hnv : nv11 c with
    | true =>
      have hzero : bitOf 0#1 k = some b := by
        simpa [V8LeafS1.fieldBit, leafS1Of, fieldsV8LeafS1, hi, hnv] using h
      obtain ⟨-, rfl⟩ := lt_and_getLsbD_of_bitOf hzero
      exact .inr ⟨by simp, hconst ▸ hnv, rfl⟩
    | false =>
      have hs := Option.isSome_of_mem h
      left
      simpa [V8LeafS1.fieldBit, leafS1Of, fieldsV8LeafS1, rowsV8LeafS1High, row49_48, hi, hnv] using hs

/-- The fields that Block and Page read alike are named by the rows that they share. -/
theorem leafS1_shared_named {f : FieldName} {k : Nat} (hf : f ≠ .UXN ∧ f ≠ .OAB ∧ f ≠ .nT)
    (hs : ((leafS1Of c d p).fieldBit f k).isSome = true) :
    RowsName (rowsV8LeafS1High c (d.extractLsb' 5 1) ++ rowsV8LeafS1Low c p.bit1) f k := by
  obtain ⟨huxn, hoab, hnT⟩ := hf
  unfold leafS1Of V8LeafS1Ops.ofBits at hs
  unfold rowsV8LeafS1High rowsV8LeafS1Low row49_48 rowS1Leaf11 rowLeaf9_8
  cases f with
  | UXN => exact absurd rfl huxn
  | OAB => exact absurd rfl hoab
  | nT => exact absurd rfl hnT
  | sw63 | AMEC | nDirty | DBM | XN | PXN | Contiguous | Protected | GP | NSE | nG | AF | NS | SH | sw =>
    simpa [V8LeafS1.fieldBit, fieldsV8LeafS1, nsePresent, ngPresent, and_assoc, and_or_left, Nat.lt_succ_iff] using hs
  | PBHA =>
    obtain ⟨rfl, h⟩ | ⟨rfl, h⟩ | ⟨rfl, h⟩ | ⟨rfl, h⟩ := isSome_bitOfBits_four.1 hs <;>
      simpa [fieldsV8LeafS1] using h
  | POIndex | AttrIndx | PIIndex | AP =>
    simp [V8LeafS1.fieldBit, fieldsV8LeafS1] at hs ⊢
    grind
  | _ => cases hs

/-- The same at stage 2. -/
theorem leafS2_shared_named {f : FieldName} {k : Nat} (hf : f ≠ .OAB ∧ f ≠ .nT)
    (hs : ((leafS2Of c d p).fieldBit f k).isSome = true) :
    RowsName (rowsV8LeafS2High c (d.extractLsb' 55 1) ++ rowsV8LeafS2Low c p.bit1) f k := by
  obtain ⟨hoab, hnT⟩ := hf
  unfold leafS2Of V8LeafS2Ops.ofBits at hs
  unfold rowsV8LeafS2High rowsV8LeafS2Low row49_48 rowLeaf9_8
  cases f with
  | OAB => exact absurd rfl hoab
  | nT => exact absurd rfl hnT
  | AMEC | NS | AssuredOnly | sw58 | sw | Dirty | DBM | Contiguous | FnXS | AF | SH =>
    simpa [V8LeafS2.fieldBit, fieldsV8LeafS2, and_assoc, Nat.lt_succ_iff] using hs
  | XN =>
    cases hx : c.FEAT_XNX <;> cases hi : c.s2_indirect <;>
      simp [V8LeafS2.fieldBit, fieldsV8LeafS2, presentIf, hx, hi] at hs ⊢
    all_goals omega
  | PBHA =>
    obtain ⟨rfl, h⟩ | ⟨rfl, h⟩ | ⟨rfl, h⟩ | ⟨rfl, h⟩ := isSome_bitOfBits_four.1 hs <;>
      simpa [fieldsV8LeafS2] using h
  | POIndex | smmu | PIIndex | S2AP | MemAttr =>
    simp [V8LeafS2.fieldBit, fieldsV8LeafS2] at hs ⊢
    grind
  | _ => cases hs

/-- A Block or Page is accounted for where its shared fields are named by the rows that it shares. -/
theorem accounted_leaf {high low : List Row} {field : FieldName → Nat → Option Bool} (hp : LeafPartAt c d p)
    (h49 : row49_48 c .OAB ∈ high) (h9 : rowLeaf9_8 c ∈ low) (hoab : ∀ k, field .OAB k = bitOf p.oab k)
    (hnT : ∀ k, field .nT k = bitOf? p.nT k)
    (huxn : ∀ k b, field .UXN k = some b →
      RowsName high .UXN k ∨ (b = false ∧ nv11At c = true ∧ c.s1_indirect = false))
    (hshared : ∀ f k, f ≠ .UXN ∧ f ≠ .OAB ∧ f ≠ .nT → (field f k).isSome = true →
      RowsName (high ++ low) f k) :
    Accounted c (high ++ p.mid ++ low) field := by
  have hmid : p.mid ⊆ high ++ p.mid ++ low := by simp
  refine .of_named (fun k b hb => (huxn k b hb).imp_left (·.mono (by simp))) fun f k hu hs haddr => ?_
  by_cases hfoab : f = .OAB
  · subst hfoab
    exact rowsName_of_address (.field .SH 1 0) (oab_bit_named hp (hoab k ▸ haddr (.inr rfl))) hmid (by simp [h49])
      (List.mem_append_right _ h9)
  by_cases hfnT : f = .nT
  · subst hfnT
    exact (nT_named hp (hnT k ▸ hs)).mono hmid
  · exact (hshared f k ⟨hu, hfoab, hfnT⟩ hs).mono (by simp)

/-- What a descriptor yields is the outcome of the instruction that it decodes to. -/
theorem eq_of_yields {d : Desc} {i i' : Instr} {dec dec' : Decoded} (hy : Yields s d i' dec')
    (hi : decodeDesc s.ctx d = .ok i) (h : exec i s = .next t) (ht : t.output = some dec) : dec = dec' := by
  obtain ⟨hi', h'⟩ := hy
  cases hi.symm.trans hi'
  cases h.symm.trans h'
  exact (Option.some.inj ht).symm

theorem fieldBit_of_leafS1 {r : Result} {f : V8LeafS1} (h : leafS1 r = some f) : r.fieldBit = f.fieldBit := by
  cases r with
  | v8BlockS1 | v8PageS1 =>
    cases h
    rfl
  | _ => cases h

theorem fieldBit_of_leafS2 {r : Result} {f : V8LeafS2} (h : leafS2 r = some f) : r.fieldBit = f.fieldBit := by
  cases r with
  | v8BlockS2 | v8PageS2 =>
    cases h
    rfl
  | _ => cases h

theorem accounted_of_leafS1 {i : Instr} {dec : Decoded} (hat : V8At s .S1) (hp : LeafPartAt s.ctx d p)
    (hi : decodeDesc s.ctx (.d64 d) = .ok i) (h : exec i s = .next t) (ht : t.output = some dec) :
    Accounted s.ctx dec.rows dec.result.fieldBit := by
  obtain ⟨i', r, hr, hy⟩ := yields_leafS1 hat hp
  cases eq_of_yields hy hi h ht
  have hacc : Accounted s.ctx (rowsLeafS1 s.ctx d p) (leafS1Of s.ctx d p).fieldBit :=
    accounted_leaf hp (by simp [rowsV8LeafS1High]) (by simp [rowsV8LeafS1Low]) (fun _ => rfl) (fun _ => rfl)
      (fun _ _ => uxn_named_or_constant _) fun _ _ => leafS1_shared_named
  exact fieldBit_of_leafS1 hr ▸ hacc

theorem accounted_of_leafS2 {i : Instr} {dec : Decoded} (hat : V8At s .S2) (hp : LeafPartAt s.ctx d p)
    (hi : decodeDesc s.ctx (.d64 d) = .ok i) (h : exec i s = .next t) (ht : t.output = some dec) :
    Accounted s.ctx dec.rows dec.result.fieldBit := by
  obtain ⟨i', r, hr, hy⟩ := yields_leafS2 hat hp
  cases eq_of_yields hy hi h ht
  have hacc : Accounted s.ctx (rowsLeafS2 s.ctx d p) (leafS2Of s.ctx d p).fieldBit :=
    accounted_leaf hp (by simp [rowsV8LeafS2High]) (by simp [rowsV8LeafS2Low]) (fun _ => rfl) (fun _ => rfl)
      nofun fun _ _ hf => leafS2_shared_named hf.2
  exact fieldBit_of_leafS2 hr ▸ hacc

end V8Leaf

/-! ### VMSAv8-64 Table and Invalid descriptors -/

section V8
variable {d : Desc64}

theorem accounted_v8TableS1 {o : V8TableS1Ops} (ho : .ofBits d = o) :
    Accounted c (rowsV8TableS1 c) (fieldsV8TableS1 c o).fieldBit := by
  refine .of_named nofun fun f k hu hs haddr => ?_
  cases f with
  | NLTA =>
    have hbit : bitOf (addrV8 c d) k = some true := by
      rw [← granuleAddrV8_eq_addrV8, ← haddr (.inl rfl), ← ho]
      rfl
    exact rowsName_of_address .ignored (addrV8_bit_named hbit) (fun r hr => by simp [rowsV8TableS1, hr])
      (by simp [rowsV8TableS1]) (by simp [rowsV8TableS1, rowsV8TableLow])
  | NSTable | APTable | XNTable | UXNTable | PXNTable | Protected | AF =>
    simpa [V8TableS1.fieldBit, fieldsV8TableS1, rowsV8TableS1, rowsV8TableLow, row49_48, and_assoc, and_or_left,
      Nat.lt_succ_iff] using hs
  | _ => cases hs

theorem accounted_v8TableS2 {o : V8TableS2Ops} (ho : .ofBits d = o) :
    Accounted c (rowsV8TableS2 c) (fieldsV8TableS2 c o).fieldBit := by
  refine .of_named nofun fun f k hu hs haddr => ?_
  cases f with
  | NLTA =>
    have hbit : bitOf (addrV8 c d) k = some true := by
      rw [← granuleAddrV8_eq_addrV8, ← haddr (.inl rfl), ← ho]
      rfl
    exact rowsName_of_address .ignored (addrV8_bit_named hbit) (fun r hr => by simp [rowsV8TableS2, hr])
      (by simp [rowsV8TableS2]) (by simp [rowsV8TableS2, rowsV8TableLow])
  | AF => simpa [V8TableS2.fieldBit, fieldsV8TableS2, rowsV8TableS2, rowsV8TableLow, row49_48] using hs
  | _ => cases hs

theorem accounted_v8InvalidS1 {q : Bit} {r : Bool} :
    Accounted c (rowsV8InvalidS1 c) (Result.v8Invalid (presentIf c.PnCH q) r).fieldBit := by
  refine .of_named nofun fun f k hu hs haddr => ?_
  cases f with
  | Protected => simpa [Result.fieldBit, rowsV8InvalidS1] using hs
  | _ => cases hs

/-- A result without a field. -/
theorem accounted_of_no_field {rows : List Row} {r : Bool} : Accounted c rows (Result.v8Invalid none r).fieldBit := by
  refine .of_named nofun fun f k hu hs haddr => ?_
  cases f <;> cases hs

end V8

/-! ### VMSAv9-128 -/

theorem accounted_v9TableS1 (o : V9TableS1Ops) :
    Accounted c (rowsV9TableS1 c o.b110_109) (fieldsV9TableS1 c o).fieldBit := by
  refine .of_named nofun fun f k hu hs haddr => ?_
  cases f with
  | NLTA => exact (granuleAddrV9_bit_named (haddr (.inl rfl))).mono fun r hr => by simp [rowsV9TableS1, hr]
  | SKL | NSTable | Protected | DisCH | AF | nT | sw_usage =>
    simpa [V9TableS1.fieldBit, fieldsV9TableS1, rowsV9TableS1, rows110_56, rowV9nT, Nat.lt_succ_iff] using hs
  | _ => cases hs

theorem accounted_v9TableS2 (o : V9TableS2Ops) :
    Accounted c (rowsV9TableS2 c o.b110_109) (fieldsV9TableS2 c o).fieldBit := by
  refine .of_named nofun fun f k hu hs haddr => ?_
  cases f with
  | NLTA => exact (granuleAddrV9_bit_named (haddr (.inl rfl))).mono fun r hr => by simp [rowsV9TableS2, hr]
  | SKL | AF | nT | sw_usage =>
    simpa [V9TableS2.fieldBit, fieldsV9TableS2, rowsV9TableS2, rows110_56, rowV9nT, Nat.lt_succ_iff] using hs
  | _ => cases hs

theorem accounted_v9LeafS1 (o : V9LeafS1Ops) :
    Accounted c (rowsV9LeafS1 c o.b110_109) (fieldsV9LeafS1 c o).fieldBit := by
  refine .of_named nofun fun f k hu hs haddr => ?_
  cases f with
  | OAB => exact (granuleAddrV9_bit_named (haddr (.inr rfl))).mono fun r hr => by simp [rowsV9LeafS1, hr]
  | SKL | NS | POIndex | PIIndex | Protected | GP | Contiguous | sw_usage | NSE | nG | AF | SH | nDirty | nT =>
    simpa [V9LeafS1.fieldBit, fieldsV9LeafS1, rowsV9LeafS1, rows110_56, rowV9nT, rowS1Leaf11, nsePresent, ngPresent,
      and_assoc, Nat.lt_succ_iff] using hs
  | AttrIndx =>
    simp [V9LeafS1.fieldBit, fieldsV9LeafS1, rowsV9LeafS1, rows110_56, rowV9nT, rowS1Leaf11] at hs ⊢
    grind
  | _ => cases hs

theorem accounted_v9LeafS2 (o : V9LeafS2Ops) :
    Accounted c (rowsV9LeafS2 c o.b110_109) (fieldsV9LeafS2 c o).fieldBit := by
  refine .of_named nofun fun f k hu hs haddr => ?_
  cases f with
  | OAB => exact (granuleAddrV9_bit_named (haddr (.inr rfl))).mono fun r hr => by simp [rowsV9LeafS2, hr]
  | SKL | NS | POIndex | PIIndex | AssuredOnly | Contiguous | sw_usage | FnXS | AF | SH | Dirty | nT =>
    simpa [V9LeafS2.fieldBit, fieldsV9LeafS2, rowsV9LeafS2, rows110_56, rowV9nT, Nat.lt_succ_iff] using hs
  | MemAttr =>
    simp [V9LeafS2.fieldBit, fieldsV9LeafS2, rowsV9LeafS2, rows110_56, rowV9nT] at hs ⊢
    grind
  | _ => cases hs

theorem accounted_v9Invalid {q v : Bit} {cause : InvalidCause} :
    Accounted c (rowsV9Invalid c v) (Result.v9Invalid (v9InvalidProtected c q v) cause).fieldBit := by
  refine .of_named nofun fun f k hu hs haddr => ?_
  cases f with
  | Protected =>
    obtain ⟨⟨⟨hv, hs1⟩, hthe⟩, hk⟩ := by simpa [Result.fieldBit, v9InvalidProtected] using hs
    simp [rowsV9Invalid, hv, hs1, hthe, hk]
  | _ => cases hs

/-! ### Every format -/

/-- Settles O43: the fields of each format are accounted for by its field table. -/
theorem everyDecodedFieldBitHasARow : Obligations.EveryDecodedFieldBitHasARow := by
  intro i s t dec f k b h ht
  have hwf := (exec_next h).1
  have hi := decodeDesc_desc hwf
  have hw := (Instr.wf_ctx hwf).1
  suffices hacc : Accounted s.ctx dec.rows dec.result.fieldBit from hacc f k b
  cases i with
    simp only [Instr.wf, Ctx.isFor, Bool.and_eq_true, Bool.not_eq_true', decide_eq_true_eq] at hwf
  | v8TableS1 o =>
    cases runFormat_output h ht
    exact accounted_v8TableS1 o.ofBits_toBits
  | v8TableS2 o =>
    cases runFormat_output h ht
    exact accounted_v8TableS2 o.ofBits_toBits
  | v8BlockS1 a m nt lo =>
    obtain ⟨-, ⟨⟨hsys, hs⟩, hl⟩, hb⟩ := hwf
    obtain ⟨n, hn⟩ := exists_blockShiftV8 hw hl hb
    exact accounted_of_leafS1 ⟨hw, hsys, hs⟩ (.block hl hn (a.toBits_type ..)) hi h ht
  | v8PageS1 a m =>
    obtain ⟨-, ⟨hsys, hs⟩, hl⟩ := hwf
    exact accounted_of_leafS1 ⟨hw, hsys, hs⟩ (.page hl (a.toBits_type ..)) hi h ht
  | v8BlockS2 a m nt lo =>
    obtain ⟨-, ⟨⟨hsys, hs⟩, hl⟩, hb⟩ := hwf
    obtain ⟨n, hn⟩ := exists_blockShiftV8 hw hl hb
    exact accounted_of_leafS2 ⟨hw, hsys, hs⟩ (.block hl hn (a.toBits_type ..)) hi h ht
  | v8PageS2 a m =>
    obtain ⟨-, ⟨hsys, hs⟩, hl⟩ := hwf
    exact accounted_of_leafS2 ⟨hw, hsys, hs⟩ (.page hl (a.toBits_type ..)) hi h ht
  | v8InvalidS1 =>
    cases runFormat_output h ht
    exact accounted_v8InvalidS1
  | v8InvalidS2 | v8Reserved =>
    cases runFormat_output h ht
    exact accounted_of_no_field
  | v9TableS1 o =>
    cases runFormat_output h ht
    exact accounted_v9TableS1 o
  | v9TableS2 o =>
    cases runFormat_output h ht
    exact accounted_v9TableS2 o
  | v9BlockPageS1 o =>
    cases runFormat_output h ht
    dsimp only [report]
    split <;> exact accounted_v9LeafS1 o
  | v9BlockPageS2 o =>
    cases runFormat_output h ht
    dsimp only [report]
    split <;> exact accounted_v9LeafS2 o
  | v9Invalid =>
    obtain ⟨cause, -, rfl⟩ := runFormatWith_output h ht
    exact accounted_v9Invalid

end Sys2Proof.Machine
end

section
/-! PROOFS. The VMSAv8-64 Invalid descriptor at either stage and the reserved encoding (R181, R183, R184): what each
yields over the descriptor's bits. -/

namespace Sys2Proof.Machine

open Sys2Proof Sys2Proof.Claims

variable {s : State} {d : Desc64} {st : Stage}

/-- The type by bit [0], whatever the level (R74); the format by the stage. -/
theorem yields_v8InvalidS1 (hat : V8At s .S1) (h0 : d.getLsbD 0 = false) :
    Yields s (.d64 d) (.v8InvalidS1 (d.extractLsb' 53 11) (d.extractLsb' 52 1) (d.extractLsb' 1 51))
      (report (.v8Invalid (presentIf s.ctx.PnCH (d.extractLsb' 52 1)) false) (rowsV8InvalidS1 s.ctx) d .none) := by
  have ⟨hw, hsys, hs⟩ := hat
  have hi := (v8TypeDetermination s.ctx d hw hsys).1 h0
  simp only [hs] at hi
  refine yields_of_exec hat hi fun hwf => ?_
  have h := execV8InvalidS1_next_iff.2 ⟨hwf, rfl⟩
  rwa [Desc.d64.inj (desc_of_decodeDesc hi)] at h

theorem yields_v8InvalidS2 (hat : V8At s .S2) (h0 : d.getLsbD 0 = false) :
    Yields s (.d64 d) (.v8InvalidS2 (d.extractLsb' 1 63))
      (report (.v8Invalid none false) rowsV8InvalidS2 d .none) := by
  have ⟨hw, hsys, hs⟩ := hat
  have hi := (v8TypeDetermination s.ctx d hw hsys).1 h0
  simp only [hs] at hi
  refine yields_of_exec hat hi fun hwf => ?_
  have h := execV8InvalidS2_next_iff.2 ⟨hwf, rfl⟩
  rwa [Desc.d64.inj (desc_of_decodeDesc hi)] at h

/-- Type bits 01 at level 3 are neither a Page nor a Block (R74), at either stage. -/
theorem yields_v8Reserved (hat : V8At s st) (h3 : s.ctx.level = 3) (hty : d.extractLsb' 0 2 = 0b01#2) :
    Yields s (.d64 d) (.v8Reserved (d.extractLsb' 2 62))
      (report (.v8Invalid none true) rowsV8Reserved d .none) := by
  have hi : decodeDesc s.ctx (.d64 d) = .ok (.v8Reserved (d.extractLsb' 2 62)) := by
    simp [decodeDesc_d64_of_wf hat.1, decodeV8, classifyV8_type_01 hty, h3]
  refine yields_of_exec hat hi fun hwf => ?_
  have h := execV8Reserved_next_iff.2 ⟨hwf, rfl⟩
  rwa [Desc.d64.inj (desc_of_decodeDesc hi)] at h

/-- Settles O27: bit [52] is the only field, and no row of the format is RES0 or RES1. -/
theorem v8InvalidStage1Decode : Obligations.V8InvalidStage1Decode := by
  intro s d hat h0
  obtain ⟨hres0, hres1⟩ := noViolation_v8InvalidS1 s.ctx d
  exact ⟨_, _, yields_v8InvalidS1 hat h0, rfl, hres0, hres1, rfl⟩

/-- Settles O28: stage 2 ignores every bit above bit [0]. -/
theorem v8InvalidStage2Decode : Obligations.V8InvalidStage2Decode := by
  intro s d hat h0
  obtain ⟨hres0, hres1⟩ := noViolation_v8InvalidS2 d
  exact ⟨_, _, yields_v8InvalidS2 hat h0, rfl, hres0, hres1, rfl⟩

/-- Settles O29: the reserved encoding has no field table, so nothing to extract or report. -/
theorem v8ReservedDecode : Obligations.V8ReservedDecode := by
  intro s st d hat h3 hty
  obtain ⟨hres0, hres1⟩ := noViolation_v8Reserved d
  exact ⟨_, yields_v8Reserved hat h3 hty, rfl, rfl, hres0, hres1, rfl⟩

end Sys2Proof.Machine
end

section
/-! PROOFS. The VMSAv9-128 Table at either stage (R190 to R195, R205 to R207): the format that its type and the stage
give, its fields over the descriptor's bits, and the bits that the RES0 report looks at. -/

namespace Sys2Proof.Machine

open Sys2Proof Sys2Proof.Claims

variable {s : State} {d : Desc128} {st : Stage}

/-! ### What the VMSAv9-128 formats share -/

/-- An instruction that a VMSAv9-128 descriptor decodes to and that latches an outcome. -/
theorem yields_d128_of_exec {i : Instr} {dec : Decoded} (hat : V9At s st)
    (hi : decodeDesc s.ctx (.d128 d) = .ok i)
    (hexec : i.wf s.ctx = true → exec i s = .next (s.deliver dec)) : Yields s (.d128 d) i dec :=
  ⟨hi, hexec (wf_of_decodeDesc (isOf_d128_iff.2 hat.2.1) hi)⟩

@[simp] theorem res0Violation_rows110_56 (d : Desc128) :
    res0Violation rows110_56 d = (some1 (d.extractLsb' 101 8) || some1 (d.extractLsb' 56 35)) := by
  simp [rows110_56, someOne_range]

@[simp] theorem res0Violation_rows55_12 (c : Ctx) (d : Desc128) (f : FieldName) :
    res0Violation (rows55_12 c f) d = lowRes0V9 c d := by
  unfold rows55_12 lowRes0V9
  cases c.granule <;> simp [someOne_range]

/-- Bit [6] is RES0 exactly when no level is skipped. -/
@[simp] theorem isRes0_rowV9nT (skl : BitVec 2) : (rowV9nT skl).isRes0 = decide (skl = 0#2) := by
  simp [rowV9nT]

@[simp] theorem someOne_rowV9nT (skl : BitVec 2) (d : Desc128) : (rowV9nT skl).someOne d = d.getLsbD 6 :=
  someOne_bit ..

/-! ### Tables -/

/-- With SKL 0 the next level of R55, otherwise that of G4: one formula. -/
theorem nextLevel_eq_ite (c : Ctx) (skl : BitVec 2) :
    nextLevel c skl = if skl = 0#2 then c.level + 1 else c.level + skl.toNat + 1 := by
  unfold nextLevel
  split
  · next h => simp [h]
  · rfl

/-- R54 at stage 1. -/
theorem nltaKind_stage1 {c : Ctx} (hs : c.stage = .S1) :
    nltaKind c = if c.regime = .EL1_0 ∧ c.el2_enabled = true then .IPA else .PA := by
  simp [nltaKind, hs]

/-- The type by the sum and the permitted table size (R76); the format by the stage. -/
theorem yields_v9TableS1 (hat : V9At s .S1) (h0 : d.getLsbD 0 = true)
    (hsum : s.ctx.level + (sklOf d).toNat < 3)
    (hok : s.ctx.table_permitted.permits s.ctx.granule s.ctx.level (sklOf d) = true) :
    Yields s (.d128 d) (.v9TableS1 (.ofBits d))
      (report (.v9TableS1 (fieldsV9TableS1 s.ctx (.ofBits d))) (rowsV9TableS1 s.ctx (sklOf d)) d .none) := by
  have ⟨hw, hsys, hs⟩ := hat
  have hi := v9TypeDetermination s.ctx d hw hsys
  simp only [h0, hsum, hok, hs, and_self, if_true] at hi
  refine yields_d128_of_exec hat hi fun hwf => ?_
  have h := execV9TableS1_next_iff.2 ⟨hwf, rfl⟩
  rwa [Desc.d128.inj (desc_of_decodeDesc hi)] at h

theorem yields_v9TableS2 (hat : V9At s .S2) (h0 : d.getLsbD 0 = true)
    (hsum : s.ctx.level + (sklOf d).toNat < 3)
    (hok : s.ctx.table_permitted.permits s.ctx.granule s.ctx.level (sklOf d) = true) :
    Yields s (.d128 d) (.v9TableS2 (.ofBits d))
      (report (.v9TableS2 (fieldsV9TableS2 s.ctx (.ofBits d))) (rowsV9TableS2 s.ctx (sklOf d)) d .none) := by
  have ⟨hw, hsys, hs⟩ := hat
  have hi := v9TypeDetermination s.ctx d hw hsys
  simp only [h0, hsum, hok, hs, and_self, if_true] at hi
  refine yields_d128_of_exec hat hi fun hwf => ?_
  have h := execV9TableS2_next_iff.2 ⟨hwf, rfl⟩
  rwa [Desc.d128.inj (desc_of_decodeDesc hi)] at h

/-- The report follows the rows from the high bits down; the statement puts first what all formats share. -/
theorem res0Violation_v9TableS1 (c : Ctx) (d : Desc128) :
    res0Violation (rowsV9TableS1 c (sklOf d)) d
      = (commonRes0V9 c d || (!decide (c.secstate = .Secure) && d.getLsbD 127)
        || (!c.s1_overlay && some1 (d.extractLsb' 121 4))
        || (!c.FEAT_THE && d.getLsbD 114)
        || (!(c.two_priv || decide (c.secstate = .Root)) && d.getLsbD 11)) := by
  calc res0Violation (rowsV9TableS1 c (sklOf d)) d
    _ = ((!decide (c.secstate = .Secure) && d.getLsbD 127) || some1 (d.extractLsb' 125 2)
        || (!c.s1_overlay && some1 (d.extractLsb' 121 4)) || some1 (d.extractLsb' 119 2)
        || (!c.FEAT_THE && d.getLsbD 114) || some1 (d.extractLsb' 101 8) || some1 (d.extractLsb' 56 35)
        || lowRes0V9 c d || (!(c.two_priv || decide (c.secstate = .Root)) && d.getLsbD 11)
        || (decide (sklOf d = 0#2) && d.getLsbD 6) || d.getLsbD 1) := by
      simp [rowsV9TableS1, someOne_bit, someOne_range, Bool.or_assoc]
    _ = _ := by
      unfold commonRes0V9
      ac_rfl

theorem res0Violation_v9TableS2 (c : Ctx) (d : Desc128) :
    res0Violation (rowsV9TableS2 c (sklOf d)) d
      = (commonRes0V9 c d || (!realmEL10 c && d.getLsbD 127)
        || (!c.s2_overlay && some1 (d.extractLsb' 121 4))
        || (!c.FEAT_THE && d.getLsbD 114) || some1 (d.extractLsb' 112 2)) := by
  calc res0Violation (rowsV9TableS2 c (sklOf d)) d
    _ = ((!realmEL10 c && d.getLsbD 127) || some1 (d.extractLsb' 125 2)
        || (!c.s2_overlay && some1 (d.extractLsb' 121 4)) || some1 (d.extractLsb' 119 2)
        || (!c.FEAT_THE && d.getLsbD 114) || some1 (d.extractLsb' 112 2) || some1 (d.extractLsb' 101 8)
        || some1 (d.extractLsb' 56 35) || lowRes0V9 c d || (decide (sklOf d = 0#2) && d.getLsbD 6)
        || d.getLsbD 1) := by
      simp [rowsV9TableS2, realmEL1_eq_realmEL10, someOne_bit, someOne_range, Bool.or_assoc]
    _ = _ := by
      unfold commonRes0V9
      ac_rfl

/-- Settles O30: the sum and the table size pick the format, and its rules read the descriptor's bits field by
field. -/
theorem v9TableStage1Decode : Obligations.V9TableStage1Decode := by
  intro s d hat h0 hsum hok
  refine ⟨_, yields_v9TableS1 hat h0 hsum hok, congrArg Result.v9TableS1 ?_, res0Violation_v9TableS1 s.ctx d,
    res1Violation_v9TableS1 .., rfl⟩
  obtain ⟨-, -, hs⟩ := hat
  rw [← granuleAddrV9_eq_addrV9, ← nextLevel_eq_ite, ← nltaKind_stage1 hs]
  rfl

/-- Settles O31: as O30, with the fields of stage 2, whose next table is at a PA. -/
theorem v9TableStage2Decode : Obligations.V9TableStage2Decode := by
  intro s d hat h0 hsum hok
  refine ⟨_, yields_v9TableS2 hat h0 hsum hok, congrArg Result.v9TableS2 ?_, res0Violation_v9TableS2 s.ctx d,
    res1Violation_v9TableS2 .., rfl⟩
  rw [← granuleAddrV9_eq_addrV9, ← nextLevel_eq_ite]
  rfl

end Sys2Proof.Machine
end

section
/-! PROOFS. The VMSAv9-128 Block and Page at either stage (R220 to R227, R240 to R242): the format that its type and the
stage give, its fields over the descriptor's bits, the bits that the RES0 report looks at, and the output address. -/

namespace Sys2Proof.Machine

open Sys2Proof Sys2Proof.Claims

variable {s : State} {d : Desc128} {st : Stage}

/-! ### The outcome -/

/-- A valid descriptor whose levels sum to 3 with a permitted block size: a Block or a Page (R76). -/
structure V9LeafAt (s : State) (st : Stage) (d : Desc128) : Prop where
  at_stage : V9At s st
  valid : d.getLsbD 0 = true
  sum : s.ctx.level + (sklOf d).toNat = 3
  permitted : s.ctx.block_permitted.permits s.ctx.granule s.ctx.level (sklOf d) = true

/-- The format of the stage. -/
def leafInstrV9 (d : Desc128) : Stage → Instr
  | .S1 => .v9BlockPageS1 (.ofBits d)
  | .S2 => .v9BlockPageS2 (.ofBits d)

theorem decodeDesc_v9Leaf (h : V9LeafAt s st d) : decodeDesc s.ctx (.d128 d) = .ok (leafInstrV9 d st) := by
  obtain ⟨⟨hw, hsys, rfl⟩, h0, hsum, hok⟩ := h
  refine (v9TypeDetermination s.ctx d hw hsys).trans (congrArg Except.ok ?_)
  rw [if_neg fun hc => hsum.not_lt hc.2.1, if_pos ⟨h0, hsum, hok⟩]
  rfl

/-- What a Block or Page yields: a Page at level 3, a Block below (R77). -/
def leafReportV9 (s : State) (d : Desc128) (page block : Result) (rows : List Row) : Decoded :=
  report (if s.ctx.level = 3 then page else block) rows d (oaV9 s.ctx (addrV9 s.ctx d) s.ia)

theorem yields_v9LeafS1 (h : V9LeafAt s .S1 d) :
    Yields s (.d128 d) (.v9BlockPageS1 (.ofBits d))
      (leafReportV9 s d (.v9PageS1 (fieldsV9LeafS1 s.ctx (.ofBits d)))
        (.v9BlockS1 (fieldsV9LeafS1 s.ctx (.ofBits d))) (rowsV9LeafS1 s.ctx (sklOf d))) := by
  have hi := decodeDesc_v9Leaf h
  refine yields_d128_of_exec h.at_stage hi fun hwf => ?_
  have hexec := execV9BlockPageS1_next_iff.2 ⟨hwf, rfl⟩
  rwa [Desc.d128.inj (desc_of_decodeDesc hi), oabV9, V9LeafS1Ops.ofBits, granuleAddrV9_eq_addrV9] at hexec

theorem yields_v9LeafS2 (h : V9LeafAt s .S2 d) :
    Yields s (.d128 d) (.v9BlockPageS2 (.ofBits d))
      (leafReportV9 s d (.v9PageS2 (fieldsV9LeafS2 s.ctx (.ofBits d)))
        (.v9BlockS2 (fieldsV9LeafS2 s.ctx (.ofBits d))) (rowsV9LeafS2 s.ctx (sklOf d))) := by
  have hi := decodeDesc_v9Leaf h
  refine yields_d128_of_exec h.at_stage hi fun hwf => ?_
  have hexec := execV9BlockPageS2_next_iff.2 ⟨hwf, rfl⟩
  rwa [Desc.d128.inj (desc_of_decodeDesc hi), oabV9, V9LeafS2Ops.ofBits, granuleAddrV9_eq_addrV9] at hexec

/-! ### The reports -/

/-- The report follows the rows from the high bits down; the statement puts first what all formats share. Bit [11] is
RES0 only outside Root state and with a single privilege level: FNG leaves it IGNORED (C9). -/
theorem res0Violation_v9LeafS1 (c : Ctx) (d : Desc128) :
    res0Violation (rowsV9LeafS1 c (sklOf d)) d
      = (commonRes0V9 c d || (!nsHere c && d.getLsbD 127)
        || (!c.s1_overlay && some1 (d.extractLsb' 121 4))
        || (!c.FEAT_THE && d.getLsbD 114)
        || (!decide (c.secstate = .Root) && !c.two_priv && d.getLsbD 11)) := by
  calc res0Violation (rowsV9LeafS1 c (sklOf d)) d
    _ = ((!nsHere c && d.getLsbD 127) || some1 (d.extractLsb' 125 2)
        || (!c.s1_overlay && some1 (d.extractLsb' 121 4)) || some1 (d.extractLsb' 119 2)
        || (!c.FEAT_THE && d.getLsbD 114) || some1 (d.extractLsb' 101 8) || some1 (d.extractLsb' 56 35)
        || lowRes0V9 c d || (!decide (c.secstate = .Root) && !c.two_priv && d.getLsbD 11)
        || (decide (sklOf d = 0#2) && d.getLsbD 6) || d.getLsbD 1) := by
      simp [rowsV9LeafS1, rowS1Leaf11, nsPresent_eq_nsHere, someOne_bit, someOne_range, Bool.or_assoc]
    _ = _ := by
      unfold commonRes0V9
      ac_rfl

theorem res0Violation_v9LeafS2 (c : Ctx) (d : Desc128) :
    res0Violation (rowsV9LeafS2 c (sklOf d)) d
      = (commonRes0V9 c d || (!realmEL10 c && d.getLsbD 127)
        || (!c.s2_overlay && some1 (d.extractLsb' 121 4))
        || (!c.FEAT_THE && d.getLsbD 114) || some1 (d.extractLsb' 112 2)
        || (c.FWB && d.getLsbD 5)) := by
  calc res0Violation (rowsV9LeafS2 c (sklOf d)) d
    _ = ((!realmEL10 c && d.getLsbD 127) || some1 (d.extractLsb' 125 2)
        || (!c.s2_overlay && some1 (d.extractLsb' 121 4)) || some1 (d.extractLsb' 119 2)
        || (!c.FEAT_THE && d.getLsbD 114) || some1 (d.extractLsb' 112 2) || some1 (d.extractLsb' 101 8)
        || some1 (d.extractLsb' 56 35) || lowRes0V9 c d || (decide (sklOf d = 0#2) && d.getLsbD 6)
        || (c.FWB && d.getLsbD 5) || d.getLsbD 1) := by
      simp [rowsV9LeafS2, realmEL1_eq_realmEL10, someOne_bit, someOne_range, Bool.or_assoc]
    _ = _ := by
      unfold commonRes0V9
      ac_rfl

/-- Settles O32: the sum and the block size pick the format, the level a Page or a Block, and the rules of the format
read the descriptor's bits field by field. -/
theorem v9LeafStage1Decode : Obligations.V9LeafStage1Decode := by
  intro s d hat h0 hsum hok
  refine ⟨_, fieldsV9LeafS1 s.ctx (.ofBits d), yields_v9LeafS1 ⟨hat, h0, hsum, hok⟩, rfl, ?_,
    res0Violation_v9LeafS1 s.ctx d, res1Violation_v9LeafS1 ..⟩
  rw [← granuleAddrV9_eq_addrV9, ← nsPresent_eq_nsHere]
  rfl

/-- Settles O33: as O32, with the fields of stage 2. -/
theorem v9LeafStage2Decode : Obligations.V9LeafStage2Decode := by
  intro s d hat h0 hsum hok
  refine ⟨_, fieldsV9LeafS2 s.ctx (.ofBits d), yields_v9LeafS2 ⟨hat, h0, hsum, hok⟩, rfl, ?_,
    res0Violation_v9LeafS2 s.ctx d, res1Violation_v9LeafS2 ..⟩
  rw [← granuleAddrV9_eq_addrV9, ← realmEL1_eq_realmEL10]
  rfl

/-! ### The output address -/

/-- The Page and the Block of a format have the same OAB and the same low bound. -/
theorem leafAddrV9_leafReportV9 {page block : Result} (rows : List Row)
    (hpage : leafAddrV9 page = some (oabV9 s.ctx (d.extractLsb' 12 44), shiftV9 s.ctx))
    (hblock : leafAddrV9 block = some (oabV9 s.ctx (d.extractLsb' 12 44), shiftV9 s.ctx)) :
    leafAddrV9 (leafReportV9 s d page block rows).result = some (addrV9 s.ctx d, shiftV9 s.ctx) := by
  rw [leafReportV9, report, apply_ite leafAddrV9, hpage, hblock, ite_self, oabV9, granuleAddrV9_eq_addrV9]

theorem exists_yields_v9Leaf (h : V9LeafAt s st d) :
    ∃ i dec, Yields s (.d128 d) i dec
      ∧ leafAddrV9 dec.result = some (addrV9 s.ctx d, shiftV9 s.ctx)
      ∧ dec.oa = oaV9 s.ctx (addrV9 s.ctx d) s.ia := by
  cases st with
  | S1 => exact ⟨_, _, yields_v9LeafS1 h, leafAddrV9_leafReportV9 _ rfl rfl, rfl⟩
  | S2 => exact ⟨_, _, yields_v9LeafS2 h, leafAddrV9_leafReportV9 _ rfl rfl, rfl⟩

/-- Settles O34: OAB is the address of the granule, and the output address takes IA's bits below the low bound where
there is one. -/
theorem v9OutputAddress : Obligations.V9OutputAddress := by
  intro s st d hat h0 hsum hok
  obtain ⟨i, dec, hy, haddr, hoa⟩ := exists_yields_v9Leaf ⟨hat, h0, hsum, hok⟩
  refine ⟨i, dec, shiftV9 s.ctx, hy, haddr, rfl, ?_⟩
  rw [hoa, oaV9]
  cases shiftV9 s.ctx with
  | none => rfl
  | some k => exact ⟨_, rfl, formOA_appended _ _ _⟩

end Sys2Proof.Machine
end

section
/-! PROOFS. The VMSAv9-128 Invalid descriptor at either stage (R260, R261): its cause, and what it yields over the
descriptor's bits. -/

namespace Sys2Proof.Machine

open Sys2Proof Sys2Proof.Claims

variable {s : State} {d : Desc128} {st : Stage}

/-- The four ways to be Invalid (R260), each with its cause (R76). -/
theorem classifyV9Skl_invalid {c : Ctx} {valid : Bool} {skl : BitVec 2}
    (h : valid = false
      ∨ (c.level + skl.toNat < 3 ∧ c.table_permitted.permits c.granule c.level skl = false)
      ∨ (c.level + skl.toNat = 3 ∧ c.block_permitted.permits c.granule c.level skl = false)
      ∨ 3 < c.level + skl.toNat) :
    classifyV9Skl c valid skl = .Invalid
      (if valid = false then .BitZero
        else if c.level + skl.toNat < 3 then .TableSizeNotPermitted
        else if c.level + skl.toNat = 3 then .BlockSizeNotPermitted
        else .SumAbove3) := by
  unfold classifyV9Skl
  cases valid with
  | false => rfl
  | true =>
    obtain h0 | ⟨hsum, hok⟩ | ⟨hsum, hok⟩ | hsum := h
    · cases h0
    · simp [hsum, hok]
    · simp [hsum, hok]
    · simp [hsum.not_gt, hsum.ne']

/-- One format for both stages; the stage and FEAT_THE decide on Protected only. -/
theorem yields_v9Invalid {cause : InvalidCause} (hat : V9At s st) (hk : classifyV9 s.ctx d = .Invalid cause) :
    Yields s (.d128 d)
      (.v9Invalid (d.extractLsb' 115 13) (d.extractLsb' 114 1) (d.extractLsb' 1 113) (d.extractLsb' 0 1))
      (report (.v9Invalid (v9InvalidProtected s.ctx (d.extractLsb' 114 1) (d.extractLsb' 0 1)) cause)
        (rowsV9Invalid s.ctx (d.extractLsb' 0 1)) d .none) := by
  have hi : decodeDesc s.ctx (.d128 d) = .ok (.v9Invalid (d.extractLsb' 115 13) (d.extractLsb' 114 1)
      (d.extractLsb' 1 113) (d.extractLsb' 0 1)) := by
    rw [decodeDesc_d128_of_wf hat.1, decodeV9, hk]
  refine yields_d128_of_exec hat hi fun hwf => ?_
  have h := execV9Invalid_next_iff.2 ⟨hwf, cause, v9InvalidCause_of_classifyV9 hk, rfl⟩
  rwa [v9InvalidBits_ofBits] at h

/-- Settles O35: the case gives the cause, bit [114] is the only field, and no row of the format is RES0 or RES1. -/
theorem v9InvalidDecode : Obligations.V9InvalidDecode := by
  intro s st d hat sum tableOk blockOk hinv
  obtain ⟨hres0, hres1⟩ := noViolation_v9Invalid s.ctx d (d.extractLsb' 0 1)
  refine ⟨_, _, yields_v9Invalid hat (classifyV9Skl_invalid hinv), ?_, hres0, hres1, rfl⟩
  obtain ⟨-, -, rfl⟩ := hat
  rw [report, v9InvalidProtected, decide_bit_zero]
  rfl

end Sys2Proof.Machine
end

section
/-! PROOFS. The state after reset (R45, R290, log entries 1, 3 and 13): nothing is latched and memory lists nothing,
so the invariant holds and the first step has no byte to read. -/

namespace Sys2Proof.Machine

open Sys2Proof Sys2Proof.Claims

variable {s : State}

/-- Before the first decode the invariant speaks of memory only. -/
theorem State.inv_of_output_none (h : s.output = none) : s.inv = s.mem.wf := by
  rw [State.inv, h, Bool.and_true]

/-- Settles O51: empty memory is in its canonical form, and no outcome is latched. -/
theorem resetMeetsTheInvariant : Obligations.ResetMeetsTheInvariant :=
  (State.inv_of_output_none rfl).trans State.reset_mem_wf

/-- Every 56-bit address lies in the address space, so the descriptor's first byte faults as not written. -/
theorem step_of_mem_nil (h : s.mem = []) : step s = .fault (.memoryNotWritten s.desc_addr.toNat) := by
  have hlen : 0 < s.ctx.system.bytes := by cases s.ctx.system <;> decide
  have hnone : s.mem.read s.desc_addr.toNat = none := by rw [h, Memory.read]
  exact (unreadableDescriptorFaults s 0 hlen nofun).2 s.desc_addr.isLt hnone

theorem reset_ctx_wf : Ctx.reset.wf = true := by decide

/-- Settles O52: the fields are those that reset names, and the step is that of a state with empty memory. -/
theorem stateRightAfterReset : Obligations.StateRightAfterReset :=
  ⟨rfl, rfl, rfl, reset_ctx_wf, step_of_mem_nil rfl⟩

end Sys2Proof.Machine
end

section
/-! PROOFS. Descriptor values in the reset context (R79, log entry 2): a value decodes to the well-formed instruction
that it is the descriptor of. -/

namespace Sys2Proof.Machine

open Sys2Proof Sys2Proof.Claims

theorem decodeTableWord_of_desc {nbits w : Nat} {i : Instr} (hd : i.desc = (System.ofWidth nbits).desc w)
    (hwf : i.wf { Ctx.reset with system := .ofWidth nbits } = true) : decodeTableWord nbits w = some i := by
  have h := decode_encode hwf
  rw [encode, hd] at h
  rw [decodeTableWord, h]

/-- Settles O7: the ranges written out make up the value, and each format applies in the reset context. -/
theorem specDescriptorsDecode : Obligations.SpecDescriptorsDecode := by
  refine ⟨?v8TableS1, ?v8BlockS1, ?v8InvalidS1, ?v9TableS1, ?v9Invalid⟩ <;>
    exact decodeTableWord_of_desc (by decide) (by decide)

end Sys2Proof.Machine
end
